-- ==== Sys2Proof/Word.lean ====
section
/-! DEFINITION. The word types of the block and the operand widths (00_scope R11, R18; 10_state R31). -/

namespace Sys2Proof

/-- One byte of memory or one 8-bit register view. -/
abbrev Byte := BitVec 8

/-- A 16-bit value: a selector, a port number, a 16-bit register view. -/
abbrev Half := BitVec 16

/-- A 32-bit value: a general register, EIP, an address (10_state R31, R35; 00_scope R10). -/
abbrev Word := BitVec 32

/-- The operand widths w in 8, 16, 32 of 00_scope R12. -/
inductive Size where
  | b8
  | b16
  | b32
  deriving DecidableEq, Repr

/-- The width in bits. -/
abbrev Size.bits : Size → Nat
  | .b8 => 8
  | .b16 => 16
  | .b32 => 32

/-- The width in bytes. -/
abbrev Size.bytes : Size → Nat
  | .b8 => 1
  | .b16 => 2
  | .b32 => 4

end Sys2Proof
end

