-- ==== Sys2Proof/Machine/Types.lean ====
section
/-! DEFINITION. The register names and the record types that State, Config and Syntax share
(10_state R31, R40 to R44, R49; 60_exceptions R495). -/

namespace Sys2Proof

/-- The eight general registers in index order 0 to 7 (10_state R31). A byte operand with index 4 to 7
names AH, CH, DH, BH; the view functions of Machine/Regs.lean say so. -/
inductive Reg where
  | eax
  | ecx
  | edx
  | ebx
  | esp
  | ebp
  | esi
  | edi
  deriving DecidableEq, Repr

/-- The six segment registers in index order 0 to 5 (10_state R40). -/
inductive SReg where
  | es
  | cs
  | ss
  | ds
  | fs
  | gs
  deriving DecidableEq, Repr

/-- The control registers that exist: CR1 has no storage (10_state R45 to R48). -/
inductive CReg where
  | cr0
  | cr2
  | cr3
  deriving DecidableEq, Repr

/-- The debug registers that exist: DR4 and DR5 do not (10_state R49). -/
inductive DReg where
  | dr0
  | dr1
  | dr2
  | dr3
  | dr6
  | dr7
  deriving DecidableEq, Repr

namespace Machine

/-- The eight 32-bit general registers (10_state R31). -/
structure Regs where
  eax : Word
  ecx : Word
  edx : Word
  ebx : Word
  esp : Word
  ebp : Word
  esi : Word
  edi : Word
  deriving DecidableEq, Repr

/-- The access rights kept with a loaded segment (10_state R42). -/
structure Rights where
  type : BitVec 4
  s : Bool
  dpl : BitVec 2
  p : Bool
  db : Bool
  g : Bool
  deriving DecidableEq, Repr

/-- A segment register with its hidden part (10_state R40); limit is the scaled byte limit. -/
structure Segment where
  sel : Half
  base : Word
  limit : Word
  ar : Rights
  valid : Bool
  deriving DecidableEq, Repr

/-- The six segment registers (10_state R40). -/
structure Segments where
  es : Segment
  cs : Segment
  ss : Segment
  ds : Segment
  fs : Segment
  gs : Segment
  deriving DecidableEq, Repr

/-- GDTR and IDTR (10_state R43). -/
structure TableReg where
  base : Word
  limit : Half
  deriving DecidableEq, Repr

/-- LDTR (10_state R44). -/
structure LdtReg where
  sel : Half
  base : Word
  limit : Word
  valid : Bool
  deriving DecidableEq, Repr

/-- TR (10_state R44); is32 tells a 32-bit TSS from a 16-bit one. -/
structure TaskReg where
  sel : Half
  base : Word
  limit : Word
  valid : Bool
  is32 : Bool
  deriving DecidableEq, Repr

/-- The six debug registers, plain storage (10_state R49). -/
structure DebugRegs where
  dr0 : Word
  dr1 : Word
  dr2 : Word
  dr3 : Word
  dr6 : Word
  dr7 : Word
  deriving DecidableEq, Repr

/-- The dispatcher state as a boundary can see it (60_exceptions R495: two values suffice). -/
inductive Activity where
  | running
  | halted
  deriving DecidableEq, Repr

/-- One call the core made to the host (00_scope R9): a port access of a mapped device (42_string_io R318)
or one of the three handler interfaces (60_exceptions R524 to R526). -/
inductive HostEvent where
  | portRead (port : Half) (bits : Nat) (value : Word)
  | portWrite (port : Half) (bits : Nat) (value : Word)
  | interrupt (vector : Byte)
  | multiplex (ah : Byte)
  | callback (slot : Word)
  deriving DecidableEq, Repr

/-- One write a host handler makes: it may write any register, flag and memory byte, and may raise an
interrupt (60_exceptions R520, R524). -/
inductive HostWrite where
  | reg (r : Reg) (v : Word)
  | eip (v : Word)
  | eflags (v : Word)
  | seg (r : SReg) (v : Segment)
  | gdtr (v : TableReg)
  | idtr (v : TableReg)
  | ldtr (v : LdtReg)
  | tr (v : TaskReg)
  | control (r : CReg) (v : Word)
  | debugReg (r : DReg) (v : Word)
  | byte (address : Nat) (v : Byte)
  | raiseInterrupt (vector : Byte)
  deriving DecidableEq, Repr

/-- The parameters of 00_scope R10 that a step reads. RESET_GPR, RESET_MEM and the loader's values are
initial contents of the state, and BUDGET is an argument of the run (log 1). -/
structure Params where
  memSize : Nat
  portHandlers : List Half
  emulatedVectors : List Byte
  multiplexHandlers : List Byte
  callbackSlots : List Word
  gateDplCheckAllSources : Bool
  pagingSetsAD : Bool
  supervisorWriteProtect : Bool
  descriptorWriteback : Bool
  deriving DecidableEq, Repr

end Machine

end Sys2Proof
end

