-- ==== Sys2Proof/Syntax.lean ====
section
/-! DEFINITION. The instruction syntax: one constructor of Instr for each of the 275 rows of the opcode table
(30_encoding R200 to R205), each with its operands; the prefix context they are read under; and the operand layout of each row. -/

namespace Sys2Proof

/-- The sixteen conditions in code order (30_encoding R203). -/
inductive Cond where
  | o
  | no
  | b
  | nb
  | z
  | nz
  | be
  | nbe
  | s
  | ns
  | p
  | np
  | l
  | nl
  | le
  | nle
  deriving DecidableEq, Repr

/-- The eleven prefix bytes (30_encoding R164). -/
inductive Pfx where
  | seg (r : SReg)
  | opSize
  | addrSize
  | lock
  | repne
  | rep
  deriving DecidableEq, Repr

/-- The prefix state of the instruction being run (10_state R53): the prefix bytes in order (30_encoding R164, R169), the
default-size bit of the code segment it was decoded with (R168), and ilen, the number of bytes fetched for the whole
instruction (10_state R35, 30_encoding R162). -/
structure Ctx where
  pfx : List Pfx
  big : Bool
  ilen : Nat
  deriving DecidableEq, Repr

/-- The clear prefix state in which every instruction starts (10_state R53, 30_encoding R161). -/
def Ctx.clear : Ctx :=
  ⟨[], false, 0⟩

/-- Operand size: 32 iff the default-size bit xor the operand-size override; a repeated prefix counts once
(30_encoding R168). -/
def Ctx.osz (c : Ctx) : Size :=
  if c.big != c.pfx.contains .opSize then .b32 else .b16

/-- Address size, likewise (30_encoding R168). -/
def Ctx.asz (c : Ctx) : Size :=
  if c.big != c.pfx.contains .addrSize then .b32 else .b16

/-- A LOCK prefix is present (30_encoding R164, R166). -/
def Ctx.locked (c : Ctx) : Bool :=
  c.pfx.contains .lock

/-- The register part of a 16-bit effective address (30_encoding R173). -/
inductive Base16 where
  | bxSi
  | bxDi
  | bpSi
  | bpDi
  | si
  | di
  | bp
  | bx
  deriving DecidableEq, Repr

/-- The displacement of a 16-bit form with a register part: mod 0, 1, 2 (30_encoding R173). -/
inductive Disp16 where
  | none
  | d8 (v : Byte)
  | d16 (v : Half)
  deriving DecidableEq, Repr

/-- The displacement of a 32-bit form with a register part: mod 0, 1, 2 (30_encoding R174, R175). -/
inductive Disp32 where
  | none
  | d8 (v : Byte)
  | d32 (v : Word)
  deriving DecidableEq, Repr

/-- A memory operand (30_encoding R173 to R175). abs16 is mod 0 rm 6, abs32 is mod 0 rm 5, sib is rm 4 with a base
register (index esp means no index, the scale is then ignored), sibAbs is rm 4, mod 0, base 5: a disp32 and no
base register. -/
inductive MemOp where
  | abs16 (disp : Half)
  | ind16 (base : Base16) (disp : Disp16)
  | abs32 (disp : Word)
  | ind32 (base : Reg) (disp : Disp32)
  | sib (scale : BitVec 2) (index base : Reg) (disp : Disp32)
  | sibAbs (scale : BitVec 2) (index : Reg) (disp : Word)
  deriving DecidableEq, Repr

/-- An r/m operand: a register (mod 3) or memory (30_encoding R171). -/
inductive RM where
  | reg (r : Reg)
  | mem (m : MemOp)
  deriving DecidableEq, Repr

/-- The immediate bytes of a row (30_encoding R180). iz also carries relz, ib also ibs and rel8. A 16-bit iz, moffs or
far offset is held zero-extended. -/
inductive Imm where
  | none
  | ib (v : Byte)
  | iw (v : Half)
  | iz (v : Word)
  | moffs (v : Word)
  | far (off : Word) (sel : Half)
  deriving DecidableEq, Repr

/-- What the ModRM reg field of a row holds: the sub-opcode, or a register number, or bits the row ignores
(30_encoding R170, R171, R204, R205; 41_logic_shift R276). sregLoad is the destination field of 8E. -/
inductive RegField where
  | digit
  | reg (r : Reg)
  | sreg (r : SReg)
  | sregLoad (r : SReg)
  | control (k : CReg)
  | debugReg (k : DReg)
  | ignored (v : BitVec 3)
  deriving DecidableEq, Repr

/-- The bytes after the opcode: immediates only; a ModRM byte with what it calls for, then immediates; or a ModRM byte
whose mod field is ignored (30_encoding R182, R205). -/
inductive Tail where
  | plain (i : Imm)
  | modrm (f : RegField) (rm : RM) (i : Imm)
  | fixedReg (md : BitVec 2) (f : RegField) (r : Reg)
  deriving DecidableEq, Repr

/-- Why a byte sequence has no catalog row (30_encoding R210, R211, R166): an opcode or group slot with no row; a form
outside the row's operand constraint; a row that needs PE = 1, in real mode; a LOCK prefix the row does not take. -/
inductive Reject where
  | noRow
  | invalidForm
  | realModeRow
  | lockNotTaken
  deriving DecidableEq, Repr

/-- The layout of an instruction: whether the opcode has the 0F escape, its tail, and whether the row accepts LOCK
(30_encoding R166, R170, R200). -/
structure Form where
  escaped : Bool
  tail : Tail
  lockable : Bool
  deriving DecidableEq, Repr

/-- An instruction: one constructor per row of the opcode table, the rows with operands in the table's order and then
those without (Lean's runtime holds at most 244 constructors that carry data). md and ig are ModRM bits the row ignores
(30_encoding R205, 41_logic_shift R276). -/
inductive Instr where
  /-- ADD rm8, r8 (00 /r), R234 -/
  | addRm8R8 (rm : RM) (r : Reg)
  /-- ADD rmv, rv (01 /r), R234 -/
  | addRmvRv (rm : RM) (r : Reg)
  /-- ADD r8, rm8 (02 /r), R234 -/
  | addR8Rm8 (r : Reg) (rm : RM)
  /-- ADD rv, rmv (03 /r), R234 -/
  | addRvRmv (r : Reg) (rm : RM)
  /-- ADD AL, ib (04), R234 -/
  | addAlIb (ib : Byte)
  /-- ADD eAX, iz (05), R234 -/
  | addEaxIz (iz : Word)
  /-- OR rm8, r8 (08 /r), R262 -/
  | orRm8R8 (rm : RM) (r : Reg)
  /-- OR rmv, rv (09 /r), R262 -/
  | orRmvRv (rm : RM) (r : Reg)
  /-- OR r8, rm8 (0A /r), R262 -/
  | orR8Rm8 (r : Reg) (rm : RM)
  /-- OR rv, rmv (0B /r), R262 -/
  | orRvRmv (r : Reg) (rm : RM)
  /-- OR AL, ib (0C), R262 -/
  | orAlIb (ib : Byte)
  /-- OR eAX, iz (0D), R262 -/
  | orEaxIz (iz : Word)
  /-- ADC rm8, r8 (10 /r), R235 -/
  | adcRm8R8 (rm : RM) (r : Reg)
  /-- ADC rmv, rv (11 /r), R235 -/
  | adcRmvRv (rm : RM) (r : Reg)
  /-- ADC r8, rm8 (12 /r), R235 -/
  | adcR8Rm8 (r : Reg) (rm : RM)
  /-- ADC rv, rmv (13 /r), R235 -/
  | adcRvRmv (r : Reg) (rm : RM)
  /-- ADC AL, ib (14), R235 -/
  | adcAlIb (ib : Byte)
  /-- ADC eAX, iz (15), R235 -/
  | adcEaxIz (iz : Word)
  /-- SBB rm8, r8 (18 /r), R237 -/
  | sbbRm8R8 (rm : RM) (r : Reg)
  /-- SBB rmv, rv (19 /r), R237 -/
  | sbbRmvRv (rm : RM) (r : Reg)
  /-- SBB r8, rm8 (1A /r), R237 -/
  | sbbR8Rm8 (r : Reg) (rm : RM)
  /-- SBB rv, rmv (1B /r), R237 -/
  | sbbRvRmv (r : Reg) (rm : RM)
  /-- SBB AL, ib (1C), R237 -/
  | sbbAlIb (ib : Byte)
  /-- SBB eAX, iz (1D), R237 -/
  | sbbEaxIz (iz : Word)
  /-- AND rm8, r8 (20 /r), R261 -/
  | andRm8R8 (rm : RM) (r : Reg)
  /-- AND rmv, rv (21 /r), R261 -/
  | andRmvRv (rm : RM) (r : Reg)
  /-- AND r8, rm8 (22 /r), R261 -/
  | andR8Rm8 (r : Reg) (rm : RM)
  /-- AND rv, rmv (23 /r), R261 -/
  | andRvRmv (r : Reg) (rm : RM)
  /-- AND AL, ib (24), R261 -/
  | andAlIb (ib : Byte)
  /-- AND eAX, iz (25), R261 -/
  | andEaxIz (iz : Word)
  /-- SUB rm8, r8 (28 /r), R236 -/
  | subRm8R8 (rm : RM) (r : Reg)
  /-- SUB rmv, rv (29 /r), R236 -/
  | subRmvRv (rm : RM) (r : Reg)
  /-- SUB r8, rm8 (2A /r), R236 -/
  | subR8Rm8 (r : Reg) (rm : RM)
  /-- SUB rv, rmv (2B /r), R236 -/
  | subRvRmv (r : Reg) (rm : RM)
  /-- SUB AL, ib (2C), R236 -/
  | subAlIb (ib : Byte)
  /-- SUB eAX, iz (2D), R236 -/
  | subEaxIz (iz : Word)
  /-- XOR rm8, r8 (30 /r), R263 -/
  | xorRm8R8 (rm : RM) (r : Reg)
  /-- XOR rmv, rv (31 /r), R263 -/
  | xorRmvRv (rm : RM) (r : Reg)
  /-- XOR r8, rm8 (32 /r), R263 -/
  | xorR8Rm8 (r : Reg) (rm : RM)
  /-- XOR rv, rmv (33 /r), R263 -/
  | xorRvRmv (r : Reg) (rm : RM)
  /-- XOR AL, ib (34), R263 -/
  | xorAlIb (ib : Byte)
  /-- XOR eAX, iz (35), R263 -/
  | xorEaxIz (iz : Word)
  /-- CMP rm8, r8 (38 /r), R238 -/
  | cmpRm8R8 (rm : RM) (r : Reg)
  /-- CMP rmv, rv (39 /r), R238 -/
  | cmpRmvRv (rm : RM) (r : Reg)
  /-- CMP r8, rm8 (3A /r), R238 -/
  | cmpR8Rm8 (r : Reg) (rm : RM)
  /-- CMP rv, rmv (3B /r), R238 -/
  | cmpRvRmv (r : Reg) (rm : RM)
  /-- CMP AL, ib (3C), R238 -/
  | cmpAlIb (ib : Byte)
  /-- CMP eAX, iz (3D), R238 -/
  | cmpEaxIz (iz : Word)
  /-- ADD rm8, ib (80 /0), R234 -/
  | addRm8Ib (rm : RM) (ib : Byte)
  /-- ADD rmv, iz (81 /0), R234 -/
  | addRmvIz (rm : RM) (iz : Word)
  /-- ADD rmv, ibs (83 /0), R234 -/
  | addRmvIbs (rm : RM) (ib : Byte)
  /-- OR rm8, ib (80 /1), R262 -/
  | orRm8Ib (rm : RM) (ib : Byte)
  /-- OR rmv, iz (81 /1), R262 -/
  | orRmvIz (rm : RM) (iz : Word)
  /-- OR rmv, ibs (83 /1), R262 -/
  | orRmvIbs (rm : RM) (ib : Byte)
  /-- ADC rm8, ib (80 /2), R235 -/
  | adcRm8Ib (rm : RM) (ib : Byte)
  /-- ADC rmv, iz (81 /2), R235 -/
  | adcRmvIz (rm : RM) (iz : Word)
  /-- ADC rmv, ibs (83 /2), R235 -/
  | adcRmvIbs (rm : RM) (ib : Byte)
  /-- SBB rm8, ib (80 /3), R237 -/
  | sbbRm8Ib (rm : RM) (ib : Byte)
  /-- SBB rmv, iz (81 /3), R237 -/
  | sbbRmvIz (rm : RM) (iz : Word)
  /-- SBB rmv, ibs (83 /3), R237 -/
  | sbbRmvIbs (rm : RM) (ib : Byte)
  /-- AND rm8, ib (80 /4), R261 -/
  | andRm8Ib (rm : RM) (ib : Byte)
  /-- AND rmv, iz (81 /4), R261 -/
  | andRmvIz (rm : RM) (iz : Word)
  /-- AND rmv, ibs (83 /4), R261 -/
  | andRmvIbs (rm : RM) (ib : Byte)
  /-- SUB rm8, ib (80 /5), R236 -/
  | subRm8Ib (rm : RM) (ib : Byte)
  /-- SUB rmv, iz (81 /5), R236 -/
  | subRmvIz (rm : RM) (iz : Word)
  /-- SUB rmv, ibs (83 /5), R236 -/
  | subRmvIbs (rm : RM) (ib : Byte)
  /-- XOR rm8, ib (80 /6), R263 -/
  | xorRm8Ib (rm : RM) (ib : Byte)
  /-- XOR rmv, iz (81 /6), R263 -/
  | xorRmvIz (rm : RM) (iz : Word)
  /-- XOR rmv, ibs (83 /6), R263 -/
  | xorRmvIbs (rm : RM) (ib : Byte)
  /-- CMP rm8, ib (80 /7), R238 -/
  | cmpRm8Ib (rm : RM) (ib : Byte)
  /-- CMP rmv, iz (81 /7), R238 -/
  | cmpRmvIz (rm : RM) (iz : Word)
  /-- CMP rmv, ibs (83 /7), R238 -/
  | cmpRmvIbs (rm : RM) (ib : Byte)
  /-- INC rv (40+r), R239 -/
  | incRv (r : Reg)
  /-- DEC rv (48+r), R240 -/
  | decRv (r : Reg)
  /-- PUSH rv (50+r), R333 -/
  | pushRv (r : Reg)
  /-- POP rv (58+r), R337 -/
  | popRv (r : Reg)
  /-- PUSH iz (68), R334 -/
  | pushIz (iz : Word)
  /-- IMUL rv, rmv, iz (69 /r), R244 -/
  | imulRvRmvIz (r : Reg) (rm : RM) (iz : Word)
  /-- PUSH ibs (6A), R334 -/
  | pushIbs (ib : Byte)
  /-- IMUL rv, rmv, ibs (6B /r), R244 -/
  | imulRvRmvIbs (r : Reg) (rm : RM) (ib : Byte)
  /-- Jcc rel8 (70+cc), R433 -/
  | jccRel8 (cc : Cond) (rel : Byte)
  /-- TEST rm8, r8 (84 /r), R265 -/
  | testRm8R8 (rm : RM) (r : Reg)
  /-- TEST rmv, rv (85 /r), R265 -/
  | testRmvRv (rm : RM) (r : Reg)
  /-- XCHG rm8, r8 (86 /r), R403 -/
  | xchgRm8R8 (rm : RM) (r : Reg)
  /-- XCHG rmv, rv (87 /r), R403 -/
  | xchgRmvRv (rm : RM) (r : Reg)
  /-- MOV rm8, r8 (88 /r), R400 -/
  | movRm8R8 (rm : RM) (r : Reg)
  /-- MOV rmv, rv (89 /r), R400 -/
  | movRmvRv (rm : RM) (r : Reg)
  /-- MOV r8, rm8 (8A /r), R400 -/
  | movR8Rm8 (r : Reg) (rm : RM)
  /-- MOV rv, rmv (8B /r), R400 -/
  | movRvRmv (r : Reg) (rm : RM)
  /-- MOV rm16, Sreg (8C /r), R381 -/
  | movRm16Sreg (rm : RM) (sr : SReg)
  /-- LEA rv, m (8D /r), R404 -/
  | leaRvM (r : Reg) (m : MemOp)
  /-- MOV Sreg, rm16 (8E /r), R380 -/
  | movSregRm16 (sr : SReg) (rm : RM)
  /-- POP rmv (8F /0), R338 -/
  | popRmv (rm : RM)
  /-- CALL ptr16:z (9A), R447 -/
  | callFarPtr (off : Word) (sel : Half)
  /-- MOV AL, moffs8 (A0), R401 -/
  | movAlMoffs8 (off : Word)
  /-- MOV eAX, moffsv (A1), R401 -/
  | movEaxMoffsv (off : Word)
  /-- MOV moffs8, AL (A2), R401 -/
  | movMoffs8Al (off : Word)
  /-- MOV moffsv, eAX (A3), R401 -/
  | movMoffsvEax (off : Word)
  /-- TEST AL, ib (A8), R265 -/
  | testAlIb (ib : Byte)
  /-- TEST eAX, iz (A9), R265 -/
  | testEaxIz (iz : Word)
  /-- MOV r8, ib (B0+r), R402 -/
  | movR8Ib (r : Reg) (ib : Byte)
  /-- MOV rv, iz (B8+r), R402 -/
  | movRvIz (r : Reg) (iz : Word)
  /-- ROL rm8, ib (C0 /0), R267 -/
  | rolRm8Ib (rm : RM) (ib : Byte)
  /-- ROR rm8, ib (C0 /1), R268 -/
  | rorRm8Ib (rm : RM) (ib : Byte)
  /-- RCL rm8, ib (C0 /2), R269 -/
  | rclRm8Ib (rm : RM) (ib : Byte)
  /-- RCR rm8, ib (C0 /3), R270 -/
  | rcrRm8Ib (rm : RM) (ib : Byte)
  /-- SHL rm8, ib (C0 /4), R271 -/
  | shlRm8Ib (rm : RM) (ib : Byte)
  /-- SHR rm8, ib (C0 /5), R272 -/
  | shrRm8Ib (rm : RM) (ib : Byte)
  /-- SAR rm8, ib (C0 /7), R273 -/
  | sarRm8Ib (rm : RM) (ib : Byte)
  /-- ROL rmv, ib (C1 /0), R267 -/
  | rolRmvIb (rm : RM) (ib : Byte)
  /-- ROR rmv, ib (C1 /1), R268 -/
  | rorRmvIb (rm : RM) (ib : Byte)
  /-- RCL rmv, ib (C1 /2), R269 -/
  | rclRmvIb (rm : RM) (ib : Byte)
  /-- RCR rmv, ib (C1 /3), R270 -/
  | rcrRmvIb (rm : RM) (ib : Byte)
  /-- SHL rmv, ib (C1 /4), R271 -/
  | shlRmvIb (rm : RM) (ib : Byte)
  /-- SHR rmv, ib (C1 /5), R272 -/
  | shrRmvIb (rm : RM) (ib : Byte)
  /-- SAR rmv, ib (C1 /7), R273 -/
  | sarRmvIb (rm : RM) (ib : Byte)
  /-- ROL rm8, 1 (D0 /0), R267 -/
  | rolRm8One (rm : RM)
  /-- ROR rm8, 1 (D0 /1), R268 -/
  | rorRm8One (rm : RM)
  /-- RCL rm8, 1 (D0 /2), R269 -/
  | rclRm8One (rm : RM)
  /-- RCR rm8, 1 (D0 /3), R270 -/
  | rcrRm8One (rm : RM)
  /-- SHL rm8, 1 (D0 /4), R271 -/
  | shlRm8One (rm : RM)
  /-- SHR rm8, 1 (D0 /5), R272 -/
  | shrRm8One (rm : RM)
  /-- SAR rm8, 1 (D0 /7), R273 -/
  | sarRm8One (rm : RM)
  /-- ROL rmv, 1 (D1 /0), R267 -/
  | rolRmvOne (rm : RM)
  /-- ROR rmv, 1 (D1 /1), R268 -/
  | rorRmvOne (rm : RM)
  /-- RCL rmv, 1 (D1 /2), R269 -/
  | rclRmvOne (rm : RM)
  /-- RCR rmv, 1 (D1 /3), R270 -/
  | rcrRmvOne (rm : RM)
  /-- SHL rmv, 1 (D1 /4), R271 -/
  | shlRmvOne (rm : RM)
  /-- SHR rmv, 1 (D1 /5), R272 -/
  | shrRmvOne (rm : RM)
  /-- SAR rmv, 1 (D1 /7), R273 -/
  | sarRmvOne (rm : RM)
  /-- ROL rm8, CL (D2 /0), R267 -/
  | rolRm8Cl (rm : RM)
  /-- ROR rm8, CL (D2 /1), R268 -/
  | rorRm8Cl (rm : RM)
  /-- RCL rm8, CL (D2 /2), R269 -/
  | rclRm8Cl (rm : RM)
  /-- RCR rm8, CL (D2 /3), R270 -/
  | rcrRm8Cl (rm : RM)
  /-- SHL rm8, CL (D2 /4), R271 -/
  | shlRm8Cl (rm : RM)
  /-- SHR rm8, CL (D2 /5), R272 -/
  | shrRm8Cl (rm : RM)
  /-- SAR rm8, CL (D2 /7), R273 -/
  | sarRm8Cl (rm : RM)
  /-- ROL rmv, CL (D3 /0), R267 -/
  | rolRmvCl (rm : RM)
  /-- ROR rmv, CL (D3 /1), R268 -/
  | rorRmvCl (rm : RM)
  /-- RCL rmv, CL (D3 /2), R269 -/
  | rclRmvCl (rm : RM)
  /-- RCR rmv, CL (D3 /3), R270 -/
  | rcrRmvCl (rm : RM)
  /-- SHL rmv, CL (D3 /4), R271 -/
  | shlRmvCl (rm : RM)
  /-- SHR rmv, CL (D3 /5), R272 -/
  | shrRmvCl (rm : RM)
  /-- SAR rmv, CL (D3 /7), R273 -/
  | sarRmvCl (rm : RM)
  /-- RET iw (C2), R440 -/
  | retIw (iw : Half)
  /-- LES rv, m16:z (C4 /r), R383 -/
  | lesRvMem (r : Reg) (m : MemOp)
  /-- LDS rv, m16:z (C5 /r), R382 -/
  | ldsRvMem (r : Reg) (m : MemOp)
  /-- MOV rm8, ib (C6 /0), R402 -/
  | movRm8Ib (rm : RM) (ib : Byte)
  /-- MOV rmv, iz (C7 /0), R402 -/
  | movRmvIz (rm : RM) (iz : Word)
  /-- RETF iw (CA), R448 -/
  | retfIw (iw : Half)
  /-- INT ib (CD), R460 -/
  | intIb (ib : Byte)
  /-- LOOPNE rel8 (E0), R437 -/
  | loopneRel8 (rel : Byte)
  /-- LOOPE rel8 (E1), R436 -/
  | loopeRel8 (rel : Byte)
  /-- LOOP rel8 (E2), R435 -/
  | loopRel8 (rel : Byte)
  /-- JCXZ rel8 (E3), R434 -/
  | jcxzRel8 (rel : Byte)
  /-- IN AL, ib (E4), R320 -/
  | inAlIb (ib : Byte)
  /-- IN eAX, ib (E5), R320 -/
  | inEaxIb (ib : Byte)
  /-- OUT ib, AL (E6), R321 -/
  | outIbAl (ib : Byte)
  /-- OUT ib, eAX (E7), R321 -/
  | outIbEax (ib : Byte)
  /-- CALL relz (E8), R438 -/
  | callRelz (rel : Word)
  /-- JMP relz (E9), R431 -/
  | jmpRelz (rel : Word)
  /-- JMP ptr16:z (EA), R446 -/
  | jmpFarPtr (off : Word) (sel : Half)
  /-- JMP rel8 (EB), R431 -/
  | jmpRel8 (rel : Byte)
  /-- TEST rm8, ib (F6 /0), R265 -/
  | testRm8Ib (rm : RM) (ib : Byte)
  /-- NOT rm8 (F6 /2), R264 -/
  | notRm8 (rm : RM)
  /-- NEG rm8 (F6 /3), R241 -/
  | negRm8 (rm : RM)
  /-- MUL rm8 (F6 /4), R242 -/
  | mulRm8 (rm : RM)
  /-- IMUL rm8 (F6 /5), R243 -/
  | imulRm8 (rm : RM)
  /-- DIV rm8 (F6 /6), R245 -/
  | divRm8 (rm : RM)
  /-- IDIV rm8 (F6 /7), R246 -/
  | idivRm8 (rm : RM)
  /-- TEST rmv, iz (F7 /0), R265 -/
  | testRmvIz (rm : RM) (iz : Word)
  /-- NOT rmv (F7 /2), R264 -/
  | notRmv (rm : RM)
  /-- NEG rmv (F7 /3), R241 -/
  | negRmv (rm : RM)
  /-- MUL rmv (F7 /4), R242 -/
  | mulRmv (rm : RM)
  /-- IMUL rmv (F7 /5), R243 -/
  | imulRmv (rm : RM)
  /-- DIV rmv (F7 /6), R245 -/
  | divRmv (rm : RM)
  /-- IDIV rmv (F7 /7), R246 -/
  | idivRmv (rm : RM)
  /-- INC rm8 (FE /0), R239 -/
  | incRm8 (rm : RM)
  /-- DEC rm8 (FE /1), R240 -/
  | decRm8 (rm : RM)
  /-- INC rmv (FF /0), R239 -/
  | incRmv (rm : RM)
  /-- DEC rmv (FF /1), R240 -/
  | decRmv (rm : RM)
  /-- CALL rmv (FF /2), R439 -/
  | callRmv (rm : RM)
  /-- CALL m16:z (FF /3), R447 -/
  | callFarMem (m : MemOp)
  /-- JMP rmv (FF /4), R432 -/
  | jmpRmv (rm : RM)
  /-- JMP m16:z (FF /5), R446 -/
  | jmpFarMem (m : MemOp)
  /-- PUSH rmv (FF /6), R335 -/
  | pushRmv (rm : RM)
  /-- SLDT rm16 (0F 00 /0), R367 -/
  | sldtRm16 (rm : RM)
  /-- STR rm16 (0F 00 /1), R368 -/
  | strRm16 (rm : RM)
  /-- LLDT rm16 (0F 00 /2), R365 -/
  | lldtRm16 (rm : RM)
  /-- LTR rm16 (0F 00 /3), R366 -/
  | ltrRm16 (rm : RM)
  /-- SGDT m (0F 01 /0), R363 -/
  | sgdtM (m : MemOp)
  /-- SIDT m (0F 01 /1), R364 -/
  | sidtM (m : MemOp)
  /-- LGDT m (0F 01 /2), R361 -/
  | lgdtM (m : MemOp)
  /-- LIDT m (0F 01 /3), R362 -/
  | lidtM (m : MemOp)
  /-- SMSW rm16 (0F 01 /4), R372 -/
  | smswRm16 (rm : RM)
  /-- LMSW rm16 (0F 01 /6), R373 -/
  | lmswRm16 (rm : RM)
  /-- MOV r32, CRn (0F 20 /r), R377 -/
  | movR32Cr (md : BitVec 2) (r : Reg) (k : CReg)
  /-- MOV r32, DRn (0F 21 /r), R378 -/
  | movR32Dr (md : BitVec 2) (r : Reg) (k : DReg)
  /-- MOV CRn, r32 (0F 22 /r), R370 -/
  | movCrR32 (md : BitVec 2) (k : CReg) (r : Reg)
  /-- MOV DRn, r32 (0F 23 /r), R371 -/
  | movDrR32 (md : BitVec 2) (k : DReg) (r : Reg)
  /-- Jcc relz (0F 80+cc), R433 -/
  | jccRelz (cc : Cond) (rel : Word)
  /-- SETcc rm8 (0F 90+cc /r), R276 -/
  | setccRm8 (cc : Cond) (ig : BitVec 3) (rm : RM)
  /-- SHLD rmv, rv, ib (0F A4 /r), R274 -/
  | shldRmvRvIb (rm : RM) (r : Reg) (ib : Byte)
  /-- SHLD rmv, rv, CL (0F A5 /r), R274 -/
  | shldRmvRvCl (rm : RM) (r : Reg)
  /-- SHRD rmv, rv, ib (0F AC /r), R275 -/
  | shrdRmvRvIb (rm : RM) (r : Reg) (ib : Byte)
  /-- SHRD rmv, rv, CL (0F AD /r), R275 -/
  | shrdRmvRvCl (rm : RM) (r : Reg)
  /-- IMUL rv, rmv (0F AF /r), R244 -/
  | imulRvRmv (r : Reg) (rm : RM)
  /-- LSS rv, m16:z (0F B2 /r), R384 -/
  | lssRvMem (r : Reg) (m : MemOp)
  /-- LFS rv, m16:z (0F B4 /r), R385 -/
  | lfsRvMem (r : Reg) (m : MemOp)
  /-- LGS rv, m16:z (0F B5 /r), R386 -/
  | lgsRvMem (r : Reg) (m : MemOp)
  /-- MOVZX rv, rm8 (0F B6 /r), R405 -/
  | movzxRvRm8 (r : Reg) (rm : RM)
  /-- MOVZX rv, rm16 (0F B7 /r), R405 -/
  | movzxRvRm16 (r : Reg) (rm : RM)
  /-- MOVSX rv, rm8 (0F BE /r), R406 -/
  | movsxRvRm8 (r : Reg) (rm : RM)
  /-- MOVSX rv, rm16 (0F BF /r), R406 -/
  | movsxRvRm16 (r : Reg) (rm : RM)
  /-- PUSH ES (06), R336 -/
  | pushEs
  /-- POP ES (07), R339 -/
  | popEs
  /-- PUSH CS (0E), R336 -/
  | pushCs
  /-- PUSH SS (16), R336 -/
  | pushSs
  /-- POP SS (17), R339 -/
  | popSs
  /-- PUSH DS (1E), R336 -/
  | pushDs
  /-- POP DS (1F), R339 -/
  | popDs
  /-- PUSH FS (0F A0), R336 -/
  | pushFs
  /-- POP FS (0F A1), R339 -/
  | popFs
  /-- PUSH GS (0F A8), R336 -/
  | pushGs
  /-- POP GS (0F A9), R339 -/
  | popGs
  /-- PUSHA (60), R340 -/
  | pusha
  /-- POPA (61), R341 -/
  | popa
  /-- INS m8, DX (6C), R307 -/
  | insB
  /-- INS mv, DX (6D), R307 -/
  | insV
  /-- OUTS DX, m8 (6E), R308 -/
  | outsB
  /-- OUTS DX, mv (6F), R308 -/
  | outsV
  /-- NOP (90), R412 -/
  | nop
  /-- XCHG eAX, rv (91), R403 -/
  | xchgEaxEcx
  /-- XCHG eAX, rv (92), R403 -/
  | xchgEaxEdx
  /-- XCHG eAX, rv (93), R403 -/
  | xchgEaxEbx
  /-- XCHG eAX, rv (94), R403 -/
  | xchgEaxEsp
  /-- XCHG eAX, rv (95), R403 -/
  | xchgEaxEbp
  /-- XCHG eAX, rv (96), R403 -/
  | xchgEaxEsi
  /-- XCHG eAX, rv (97), R403 -/
  | xchgEaxEdi
  /-- CBW (98), R407 -/
  | cbw
  /-- CWD (99), R408 -/
  | cwd
  /-- PUSHF (9C), R345 -/
  | pushf
  /-- POPF (9D), R346 -/
  | popf
  /-- SAHF (9E), R411 -/
  | sahf
  /-- LAHF (9F), R410 -/
  | lahf
  /-- MOVS (A4), R302 -/
  | movsB
  /-- MOVS (A5), R302 -/
  | movsV
  /-- CMPS (A6), R303 -/
  | cmpsB
  /-- CMPS (A7), R303 -/
  | cmpsV
  /-- STOS (AA), R304 -/
  | stosB
  /-- STOS (AB), R304 -/
  | stosV
  /-- LODS (AC), R305 -/
  | lodsB
  /-- LODS (AD), R305 -/
  | lodsV
  /-- SCAS (AE), R306 -/
  | scasB
  /-- SCAS (AF), R306 -/
  | scasV
  /-- RET (C3), R440 -/
  | ret
  /-- LEAVE (C9), R347 -/
  | leave
  /-- RETF (CB), R448 -/
  | retf
  /-- INT3 (CC), R461 -/
  | int3
  /-- INTO (CE), R462 -/
  | into
  /-- IRET (CF), R470 -/
  | iret
  /-- XLAT (D7), R409 -/
  | xlat
  /-- IN AL, DX (EC), R320 -/
  | inAlDx
  /-- IN eAX, DX (ED), R320 -/
  | inEaxDx
  /-- OUT DX, AL (EE), R321 -/
  | outDxAl
  /-- OUT DX, eAX (EF), R321 -/
  | outDxEax
  /-- HLT (F4), R390 -/
  | hlt
  /-- CMC (F5), R415 -/
  | cmc
  /-- CLC (F8), R413 -/
  | clc
  /-- STC (F9), R414 -/
  | stc
  /-- CLI (FA), R391 -/
  | cli
  /-- STI (FB), R392 -/
  | sti
  /-- CLD (FC), R416 -/
  | cld
  /-- STD (FD), R417 -/
  | std
  /-- CLTS (0F 06), R374 -/
  | clts
  deriving DecidableEq, Repr

/-- The layout of each row (opcode_table.json: operands, modrm, imm and lock of the row). -/
def Instr.form : Instr → Form
  | .addRm8R8 rm r => ⟨false, .modrm (.reg r) rm .none, true⟩
  | .addRmvRv rm r => ⟨false, .modrm (.reg r) rm .none, true⟩
  | .addR8Rm8 r rm => ⟨false, .modrm (.reg r) rm .none, false⟩
  | .addRvRmv r rm => ⟨false, .modrm (.reg r) rm .none, false⟩
  | .addAlIb ib => ⟨false, .plain (.ib ib), false⟩
  | .addEaxIz iz => ⟨false, .plain (.iz iz), false⟩
  | .orRm8R8 rm r => ⟨false, .modrm (.reg r) rm .none, true⟩
  | .orRmvRv rm r => ⟨false, .modrm (.reg r) rm .none, true⟩
  | .orR8Rm8 r rm => ⟨false, .modrm (.reg r) rm .none, false⟩
  | .orRvRmv r rm => ⟨false, .modrm (.reg r) rm .none, false⟩
  | .orAlIb ib => ⟨false, .plain (.ib ib), false⟩
  | .orEaxIz iz => ⟨false, .plain (.iz iz), false⟩
  | .adcRm8R8 rm r => ⟨false, .modrm (.reg r) rm .none, true⟩
  | .adcRmvRv rm r => ⟨false, .modrm (.reg r) rm .none, true⟩
  | .adcR8Rm8 r rm => ⟨false, .modrm (.reg r) rm .none, false⟩
  | .adcRvRmv r rm => ⟨false, .modrm (.reg r) rm .none, false⟩
  | .adcAlIb ib => ⟨false, .plain (.ib ib), false⟩
  | .adcEaxIz iz => ⟨false, .plain (.iz iz), false⟩
  | .sbbRm8R8 rm r => ⟨false, .modrm (.reg r) rm .none, true⟩
  | .sbbRmvRv rm r => ⟨false, .modrm (.reg r) rm .none, true⟩
  | .sbbR8Rm8 r rm => ⟨false, .modrm (.reg r) rm .none, false⟩
  | .sbbRvRmv r rm => ⟨false, .modrm (.reg r) rm .none, false⟩
  | .sbbAlIb ib => ⟨false, .plain (.ib ib), false⟩
  | .sbbEaxIz iz => ⟨false, .plain (.iz iz), false⟩
  | .andRm8R8 rm r => ⟨false, .modrm (.reg r) rm .none, true⟩
  | .andRmvRv rm r => ⟨false, .modrm (.reg r) rm .none, true⟩
  | .andR8Rm8 r rm => ⟨false, .modrm (.reg r) rm .none, false⟩
  | .andRvRmv r rm => ⟨false, .modrm (.reg r) rm .none, false⟩
  | .andAlIb ib => ⟨false, .plain (.ib ib), false⟩
  | .andEaxIz iz => ⟨false, .plain (.iz iz), false⟩
  | .subRm8R8 rm r => ⟨false, .modrm (.reg r) rm .none, true⟩
  | .subRmvRv rm r => ⟨false, .modrm (.reg r) rm .none, true⟩
  | .subR8Rm8 r rm => ⟨false, .modrm (.reg r) rm .none, false⟩
  | .subRvRmv r rm => ⟨false, .modrm (.reg r) rm .none, false⟩
  | .subAlIb ib => ⟨false, .plain (.ib ib), false⟩
  | .subEaxIz iz => ⟨false, .plain (.iz iz), false⟩
  | .xorRm8R8 rm r => ⟨false, .modrm (.reg r) rm .none, true⟩
  | .xorRmvRv rm r => ⟨false, .modrm (.reg r) rm .none, true⟩
  | .xorR8Rm8 r rm => ⟨false, .modrm (.reg r) rm .none, false⟩
  | .xorRvRmv r rm => ⟨false, .modrm (.reg r) rm .none, false⟩
  | .xorAlIb ib => ⟨false, .plain (.ib ib), false⟩
  | .xorEaxIz iz => ⟨false, .plain (.iz iz), false⟩
  | .cmpRm8R8 rm r => ⟨false, .modrm (.reg r) rm .none, false⟩
  | .cmpRmvRv rm r => ⟨false, .modrm (.reg r) rm .none, false⟩
  | .cmpR8Rm8 r rm => ⟨false, .modrm (.reg r) rm .none, false⟩
  | .cmpRvRmv r rm => ⟨false, .modrm (.reg r) rm .none, false⟩
  | .cmpAlIb ib => ⟨false, .plain (.ib ib), false⟩
  | .cmpEaxIz iz => ⟨false, .plain (.iz iz), false⟩
  | .addRm8Ib rm ib => ⟨false, .modrm (.digit) rm (.ib ib), true⟩
  | .addRmvIz rm iz => ⟨false, .modrm (.digit) rm (.iz iz), true⟩
  | .addRmvIbs rm ib => ⟨false, .modrm (.digit) rm (.ib ib), true⟩
  | .orRm8Ib rm ib => ⟨false, .modrm (.digit) rm (.ib ib), true⟩
  | .orRmvIz rm iz => ⟨false, .modrm (.digit) rm (.iz iz), true⟩
  | .orRmvIbs rm ib => ⟨false, .modrm (.digit) rm (.ib ib), true⟩
  | .adcRm8Ib rm ib => ⟨false, .modrm (.digit) rm (.ib ib), true⟩
  | .adcRmvIz rm iz => ⟨false, .modrm (.digit) rm (.iz iz), true⟩
  | .adcRmvIbs rm ib => ⟨false, .modrm (.digit) rm (.ib ib), true⟩
  | .sbbRm8Ib rm ib => ⟨false, .modrm (.digit) rm (.ib ib), true⟩
  | .sbbRmvIz rm iz => ⟨false, .modrm (.digit) rm (.iz iz), true⟩
  | .sbbRmvIbs rm ib => ⟨false, .modrm (.digit) rm (.ib ib), true⟩
  | .andRm8Ib rm ib => ⟨false, .modrm (.digit) rm (.ib ib), true⟩
  | .andRmvIz rm iz => ⟨false, .modrm (.digit) rm (.iz iz), true⟩
  | .andRmvIbs rm ib => ⟨false, .modrm (.digit) rm (.ib ib), true⟩
  | .subRm8Ib rm ib => ⟨false, .modrm (.digit) rm (.ib ib), true⟩
  | .subRmvIz rm iz => ⟨false, .modrm (.digit) rm (.iz iz), true⟩
  | .subRmvIbs rm ib => ⟨false, .modrm (.digit) rm (.ib ib), true⟩
  | .xorRm8Ib rm ib => ⟨false, .modrm (.digit) rm (.ib ib), true⟩
  | .xorRmvIz rm iz => ⟨false, .modrm (.digit) rm (.iz iz), true⟩
  | .xorRmvIbs rm ib => ⟨false, .modrm (.digit) rm (.ib ib), true⟩
  | .cmpRm8Ib rm ib => ⟨false, .modrm (.digit) rm (.ib ib), false⟩
  | .cmpRmvIz rm iz => ⟨false, .modrm (.digit) rm (.iz iz), false⟩
  | .cmpRmvIbs rm ib => ⟨false, .modrm (.digit) rm (.ib ib), false⟩
  | .incRv _ => ⟨false, .plain .none, false⟩
  | .decRv _ => ⟨false, .plain .none, false⟩
  | .pushRv _ => ⟨false, .plain .none, false⟩
  | .popRv _ => ⟨false, .plain .none, false⟩
  | .pushIz iz => ⟨false, .plain (.iz iz), false⟩
  | .imulRvRmvIz r rm iz => ⟨false, .modrm (.reg r) rm (.iz iz), false⟩
  | .pushIbs ib => ⟨false, .plain (.ib ib), false⟩
  | .imulRvRmvIbs r rm ib => ⟨false, .modrm (.reg r) rm (.ib ib), false⟩
  | .jccRel8 _ rel => ⟨false, .plain (.ib rel), false⟩
  | .testRm8R8 rm r => ⟨false, .modrm (.reg r) rm .none, false⟩
  | .testRmvRv rm r => ⟨false, .modrm (.reg r) rm .none, false⟩
  | .xchgRm8R8 rm r => ⟨false, .modrm (.reg r) rm .none, true⟩
  | .xchgRmvRv rm r => ⟨false, .modrm (.reg r) rm .none, true⟩
  | .movRm8R8 rm r => ⟨false, .modrm (.reg r) rm .none, false⟩
  | .movRmvRv rm r => ⟨false, .modrm (.reg r) rm .none, false⟩
  | .movR8Rm8 r rm => ⟨false, .modrm (.reg r) rm .none, false⟩
  | .movRvRmv r rm => ⟨false, .modrm (.reg r) rm .none, false⟩
  | .movRm16Sreg rm sr => ⟨false, .modrm (.sreg sr) rm .none, false⟩
  | .leaRvM r m => ⟨false, .modrm (.reg r) (.mem m) .none, false⟩
  | .movSregRm16 sr rm => ⟨false, .modrm (.sregLoad sr) rm .none, false⟩
  | .popRmv rm => ⟨false, .modrm (.digit) rm .none, false⟩
  | .callFarPtr off sel => ⟨false, .plain (.far off sel), false⟩
  | .movAlMoffs8 off => ⟨false, .plain (.moffs off), false⟩
  | .movEaxMoffsv off => ⟨false, .plain (.moffs off), false⟩
  | .movMoffs8Al off => ⟨false, .plain (.moffs off), false⟩
  | .movMoffsvEax off => ⟨false, .plain (.moffs off), false⟩
  | .testAlIb ib => ⟨false, .plain (.ib ib), false⟩
  | .testEaxIz iz => ⟨false, .plain (.iz iz), false⟩
  | .movR8Ib _ ib => ⟨false, .plain (.ib ib), false⟩
  | .movRvIz _ iz => ⟨false, .plain (.iz iz), false⟩
  | .rolRm8Ib rm ib => ⟨false, .modrm (.digit) rm (.ib ib), false⟩
  | .rorRm8Ib rm ib => ⟨false, .modrm (.digit) rm (.ib ib), false⟩
  | .rclRm8Ib rm ib => ⟨false, .modrm (.digit) rm (.ib ib), false⟩
  | .rcrRm8Ib rm ib => ⟨false, .modrm (.digit) rm (.ib ib), false⟩
  | .shlRm8Ib rm ib => ⟨false, .modrm (.digit) rm (.ib ib), false⟩
  | .shrRm8Ib rm ib => ⟨false, .modrm (.digit) rm (.ib ib), false⟩
  | .sarRm8Ib rm ib => ⟨false, .modrm (.digit) rm (.ib ib), false⟩
  | .rolRmvIb rm ib => ⟨false, .modrm (.digit) rm (.ib ib), false⟩
  | .rorRmvIb rm ib => ⟨false, .modrm (.digit) rm (.ib ib), false⟩
  | .rclRmvIb rm ib => ⟨false, .modrm (.digit) rm (.ib ib), false⟩
  | .rcrRmvIb rm ib => ⟨false, .modrm (.digit) rm (.ib ib), false⟩
  | .shlRmvIb rm ib => ⟨false, .modrm (.digit) rm (.ib ib), false⟩
  | .shrRmvIb rm ib => ⟨false, .modrm (.digit) rm (.ib ib), false⟩
  | .sarRmvIb rm ib => ⟨false, .modrm (.digit) rm (.ib ib), false⟩
  | .rolRm8One rm => ⟨false, .modrm (.digit) rm .none, false⟩
  | .rorRm8One rm => ⟨false, .modrm (.digit) rm .none, false⟩
  | .rclRm8One rm => ⟨false, .modrm (.digit) rm .none, false⟩
  | .rcrRm8One rm => ⟨false, .modrm (.digit) rm .none, false⟩
  | .shlRm8One rm => ⟨false, .modrm (.digit) rm .none, false⟩
  | .shrRm8One rm => ⟨false, .modrm (.digit) rm .none, false⟩
  | .sarRm8One rm => ⟨false, .modrm (.digit) rm .none, false⟩
  | .rolRmvOne rm => ⟨false, .modrm (.digit) rm .none, false⟩
  | .rorRmvOne rm => ⟨false, .modrm (.digit) rm .none, false⟩
  | .rclRmvOne rm => ⟨false, .modrm (.digit) rm .none, false⟩
  | .rcrRmvOne rm => ⟨false, .modrm (.digit) rm .none, false⟩
  | .shlRmvOne rm => ⟨false, .modrm (.digit) rm .none, false⟩
  | .shrRmvOne rm => ⟨false, .modrm (.digit) rm .none, false⟩
  | .sarRmvOne rm => ⟨false, .modrm (.digit) rm .none, false⟩
  | .rolRm8Cl rm => ⟨false, .modrm (.digit) rm .none, false⟩
  | .rorRm8Cl rm => ⟨false, .modrm (.digit) rm .none, false⟩
  | .rclRm8Cl rm => ⟨false, .modrm (.digit) rm .none, false⟩
  | .rcrRm8Cl rm => ⟨false, .modrm (.digit) rm .none, false⟩
  | .shlRm8Cl rm => ⟨false, .modrm (.digit) rm .none, false⟩
  | .shrRm8Cl rm => ⟨false, .modrm (.digit) rm .none, false⟩
  | .sarRm8Cl rm => ⟨false, .modrm (.digit) rm .none, false⟩
  | .rolRmvCl rm => ⟨false, .modrm (.digit) rm .none, false⟩
  | .rorRmvCl rm => ⟨false, .modrm (.digit) rm .none, false⟩
  | .rclRmvCl rm => ⟨false, .modrm (.digit) rm .none, false⟩
  | .rcrRmvCl rm => ⟨false, .modrm (.digit) rm .none, false⟩
  | .shlRmvCl rm => ⟨false, .modrm (.digit) rm .none, false⟩
  | .shrRmvCl rm => ⟨false, .modrm (.digit) rm .none, false⟩
  | .sarRmvCl rm => ⟨false, .modrm (.digit) rm .none, false⟩
  | .retIw iw => ⟨false, .plain (.iw iw), false⟩
  | .lesRvMem r m => ⟨false, .modrm (.reg r) (.mem m) .none, false⟩
  | .ldsRvMem r m => ⟨false, .modrm (.reg r) (.mem m) .none, false⟩
  | .movRm8Ib rm ib => ⟨false, .modrm (.digit) rm (.ib ib), false⟩
  | .movRmvIz rm iz => ⟨false, .modrm (.digit) rm (.iz iz), false⟩
  | .retfIw iw => ⟨false, .plain (.iw iw), false⟩
  | .intIb ib => ⟨false, .plain (.ib ib), false⟩
  | .loopneRel8 rel => ⟨false, .plain (.ib rel), false⟩
  | .loopeRel8 rel => ⟨false, .plain (.ib rel), false⟩
  | .loopRel8 rel => ⟨false, .plain (.ib rel), false⟩
  | .jcxzRel8 rel => ⟨false, .plain (.ib rel), false⟩
  | .inAlIb ib => ⟨false, .plain (.ib ib), false⟩
  | .inEaxIb ib => ⟨false, .plain (.ib ib), false⟩
  | .outIbAl ib => ⟨false, .plain (.ib ib), false⟩
  | .outIbEax ib => ⟨false, .plain (.ib ib), false⟩
  | .callRelz rel => ⟨false, .plain (.iz rel), false⟩
  | .jmpRelz rel => ⟨false, .plain (.iz rel), false⟩
  | .jmpFarPtr off sel => ⟨false, .plain (.far off sel), false⟩
  | .jmpRel8 rel => ⟨false, .plain (.ib rel), false⟩
  | .testRm8Ib rm ib => ⟨false, .modrm (.digit) rm (.ib ib), false⟩
  | .notRm8 rm => ⟨false, .modrm (.digit) rm .none, true⟩
  | .negRm8 rm => ⟨false, .modrm (.digit) rm .none, true⟩
  | .mulRm8 rm => ⟨false, .modrm (.digit) rm .none, false⟩
  | .imulRm8 rm => ⟨false, .modrm (.digit) rm .none, false⟩
  | .divRm8 rm => ⟨false, .modrm (.digit) rm .none, false⟩
  | .idivRm8 rm => ⟨false, .modrm (.digit) rm .none, false⟩
  | .testRmvIz rm iz => ⟨false, .modrm (.digit) rm (.iz iz), false⟩
  | .notRmv rm => ⟨false, .modrm (.digit) rm .none, true⟩
  | .negRmv rm => ⟨false, .modrm (.digit) rm .none, true⟩
  | .mulRmv rm => ⟨false, .modrm (.digit) rm .none, false⟩
  | .imulRmv rm => ⟨false, .modrm (.digit) rm .none, false⟩
  | .divRmv rm => ⟨false, .modrm (.digit) rm .none, false⟩
  | .idivRmv rm => ⟨false, .modrm (.digit) rm .none, false⟩
  | .incRm8 rm => ⟨false, .modrm (.digit) rm .none, true⟩
  | .decRm8 rm => ⟨false, .modrm (.digit) rm .none, true⟩
  | .incRmv rm => ⟨false, .modrm (.digit) rm .none, true⟩
  | .decRmv rm => ⟨false, .modrm (.digit) rm .none, true⟩
  | .callRmv rm => ⟨false, .modrm (.digit) rm .none, false⟩
  | .callFarMem m => ⟨false, .modrm (.digit) (.mem m) .none, false⟩
  | .jmpRmv rm => ⟨false, .modrm (.digit) rm .none, false⟩
  | .jmpFarMem m => ⟨false, .modrm (.digit) (.mem m) .none, false⟩
  | .pushRmv rm => ⟨false, .modrm (.digit) rm .none, false⟩
  | .sldtRm16 rm => ⟨true, .modrm (.digit) rm .none, false⟩
  | .strRm16 rm => ⟨true, .modrm (.digit) rm .none, false⟩
  | .lldtRm16 rm => ⟨true, .modrm (.digit) rm .none, false⟩
  | .ltrRm16 rm => ⟨true, .modrm (.digit) rm .none, false⟩
  | .sgdtM m => ⟨true, .modrm (.digit) (.mem m) .none, false⟩
  | .sidtM m => ⟨true, .modrm (.digit) (.mem m) .none, false⟩
  | .lgdtM m => ⟨true, .modrm (.digit) (.mem m) .none, false⟩
  | .lidtM m => ⟨true, .modrm (.digit) (.mem m) .none, false⟩
  | .smswRm16 rm => ⟨true, .modrm (.digit) rm .none, false⟩
  | .lmswRm16 rm => ⟨true, .modrm (.digit) rm .none, false⟩
  | .movR32Cr md r k => ⟨true, .fixedReg md (.control k) r, false⟩
  | .movR32Dr md r k => ⟨true, .fixedReg md (.debugReg k) r, false⟩
  | .movCrR32 md k r => ⟨true, .fixedReg md (.control k) r, false⟩
  | .movDrR32 md k r => ⟨true, .fixedReg md (.debugReg k) r, false⟩
  | .jccRelz _ rel => ⟨true, .plain (.iz rel), false⟩
  | .setccRm8 _ ig rm => ⟨true, .modrm (.ignored ig) rm .none, false⟩
  | .shldRmvRvIb rm r ib => ⟨true, .modrm (.reg r) rm (.ib ib), false⟩
  | .shldRmvRvCl rm r => ⟨true, .modrm (.reg r) rm .none, false⟩
  | .shrdRmvRvIb rm r ib => ⟨true, .modrm (.reg r) rm (.ib ib), false⟩
  | .shrdRmvRvCl rm r => ⟨true, .modrm (.reg r) rm .none, false⟩
  | .imulRvRmv r rm => ⟨true, .modrm (.reg r) rm .none, false⟩
  | .lssRvMem r m => ⟨true, .modrm (.reg r) (.mem m) .none, false⟩
  | .lfsRvMem r m => ⟨true, .modrm (.reg r) (.mem m) .none, false⟩
  | .lgsRvMem r m => ⟨true, .modrm (.reg r) (.mem m) .none, false⟩
  | .movzxRvRm8 r rm => ⟨true, .modrm (.reg r) rm .none, false⟩
  | .movzxRvRm16 r rm => ⟨true, .modrm (.reg r) rm .none, false⟩
  | .movsxRvRm8 r rm => ⟨true, .modrm (.reg r) rm .none, false⟩
  | .movsxRvRm16 r rm => ⟨true, .modrm (.reg r) rm .none, false⟩
  | .pushEs => ⟨false, .plain .none, false⟩
  | .popEs => ⟨false, .plain .none, false⟩
  | .pushCs => ⟨false, .plain .none, false⟩
  | .pushSs => ⟨false, .plain .none, false⟩
  | .popSs => ⟨false, .plain .none, false⟩
  | .pushDs => ⟨false, .plain .none, false⟩
  | .popDs => ⟨false, .plain .none, false⟩
  | .pushFs => ⟨true, .plain .none, false⟩
  | .popFs => ⟨true, .plain .none, false⟩
  | .pushGs => ⟨true, .plain .none, false⟩
  | .popGs => ⟨true, .plain .none, false⟩
  | .pusha => ⟨false, .plain .none, false⟩
  | .popa => ⟨false, .plain .none, false⟩
  | .insB => ⟨false, .plain .none, false⟩
  | .insV => ⟨false, .plain .none, false⟩
  | .outsB => ⟨false, .plain .none, false⟩
  | .outsV => ⟨false, .plain .none, false⟩
  | .nop => ⟨false, .plain .none, false⟩
  | .xchgEaxEcx => ⟨false, .plain .none, false⟩
  | .xchgEaxEdx => ⟨false, .plain .none, false⟩
  | .xchgEaxEbx => ⟨false, .plain .none, false⟩
  | .xchgEaxEsp => ⟨false, .plain .none, false⟩
  | .xchgEaxEbp => ⟨false, .plain .none, false⟩
  | .xchgEaxEsi => ⟨false, .plain .none, false⟩
  | .xchgEaxEdi => ⟨false, .plain .none, false⟩
  | .cbw => ⟨false, .plain .none, false⟩
  | .cwd => ⟨false, .plain .none, false⟩
  | .pushf => ⟨false, .plain .none, false⟩
  | .popf => ⟨false, .plain .none, false⟩
  | .sahf => ⟨false, .plain .none, false⟩
  | .lahf => ⟨false, .plain .none, false⟩
  | .movsB => ⟨false, .plain .none, false⟩
  | .movsV => ⟨false, .plain .none, false⟩
  | .cmpsB => ⟨false, .plain .none, false⟩
  | .cmpsV => ⟨false, .plain .none, false⟩
  | .stosB => ⟨false, .plain .none, false⟩
  | .stosV => ⟨false, .plain .none, false⟩
  | .lodsB => ⟨false, .plain .none, false⟩
  | .lodsV => ⟨false, .plain .none, false⟩
  | .scasB => ⟨false, .plain .none, false⟩
  | .scasV => ⟨false, .plain .none, false⟩
  | .ret => ⟨false, .plain .none, false⟩
  | .leave => ⟨false, .plain .none, false⟩
  | .retf => ⟨false, .plain .none, false⟩
  | .int3 => ⟨false, .plain .none, false⟩
  | .into => ⟨false, .plain .none, false⟩
  | .iret => ⟨false, .plain .none, false⟩
  | .xlat => ⟨false, .plain .none, false⟩
  | .inAlDx => ⟨false, .plain .none, false⟩
  | .inEaxDx => ⟨false, .plain .none, false⟩
  | .outDxAl => ⟨false, .plain .none, false⟩
  | .outDxEax => ⟨false, .plain .none, false⟩
  | .hlt => ⟨false, .plain .none, false⟩
  | .cmc => ⟨false, .plain .none, false⟩
  | .clc => ⟨false, .plain .none, false⟩
  | .stc => ⟨false, .plain .none, false⟩
  | .cli => ⟨false, .plain .none, false⟩
  | .sti => ⟨false, .plain .none, false⟩
  | .cld => ⟨false, .plain .none, false⟩
  | .std => ⟨false, .plain .none, false⟩
  | .clts => ⟨true, .plain .none, false⟩

end Sys2Proof
end

