-- ==== Sys2Proof/WellFormed.lean ====
section
/-! DEFINITION. Well-formed instructions: the checks that every decoded instruction meets, each by name. -/

namespace Sys2Proof

/-- Bytes of a 16-bit displacement (30_encoding R173). -/
def Disp16.length : Disp16 → Nat
  | .none => 0
  | .d8 _ => 1
  | .d16 _ => 2

/-- Bytes of a 32-bit displacement (30_encoding R174). -/
def Disp32.length : Disp32 → Nat
  | .none => 0
  | .d8 _ => 1
  | .d32 _ => 4

/-- Bytes after the ModRM byte that a memory operand calls for (30_encoding R173 to R175). -/
def MemOp.length : MemOp → Nat
  | .abs16 _ => 2
  | .ind16 _ d => d.length
  | .abs32 _ => 4
  | .ind32 _ d => d.length
  | .sib _ _ _ d => 1 + d.length
  | .sibAbs _ _ _ => 5

/-- The same for an r/m operand. -/
def RM.length : RM → Nat
  | .reg _ => 0
  | .mem m => m.length

/-- Immediate bytes under the sizes of a context (30_encoding R180). -/
def Imm.length (c : Ctx) : Imm → Nat
  | .none => 0
  | .ib _ => 1
  | .iw _ => 2
  | .iz _ => c.osz.bytes
  | .moffs _ => c.asz.bytes
  | .far _ _ => c.osz.bytes + 2

/-- Bytes after the opcode. -/
def Tail.length (c : Ctx) : Tail → Nat
  | .plain i => i.length c
  | .modrm _ rm i => 1 + rm.length + i.length c
  | .fixedReg _ _ _ => 1

/-- Every byte of the instruction, prefixes included (30_encoding R162, R182). -/
def Form.length (c : Ctx) (f : Form) : Nat :=
  c.pfx.length + (if f.escaped then 2 else 1) + f.tail.length c

/-- A memory operand has the shape its address size encodes: BP and EBP always carry a displacement, and ESP is a base
only through SIB (30_encoding R173 to R175). -/
def MemOp.fits (asz : Size) : MemOp → Bool
  | .abs16 _ => asz == .b16
  | .ind16 b d => asz == .b16 && (b != .bp || d != .none)
  | .abs32 _ => asz == .b32
  | .ind32 b d => asz == .b32 && b != .esp && (b != .ebp || d != .none)
  | .sib _ _ b d => asz == .b32 && (b != .ebp || d != .none)
  | .sibAbs _ _ _ => asz == .b32

/-- An r/m operand has the shape its address size encodes. -/
def RM.fits (asz : Size) : RM → Bool
  | .reg _ => true
  | .mem m => m.fits asz

/-- A size-dependent immediate fits its size (30_encoding R180). -/
def Imm.fits (c : Ctx) : Imm → Bool
  | .iz v => c.osz == .b32 || v.toNat < 65536
  | .moffs v => c.asz == .b32 || v.toNat < 65536
  | .far off _ => c.osz == .b32 || off.toNat < 65536
  | _ => true

/-- 8E has no row for a load of CS (30_encoding R204). -/
def RegField.fits : RegField → Bool
  | .sregLoad r => r != .cs
  | _ => true

/-- The operands fit the context. -/
def Tail.fits (c : Ctx) : Tail → Bool
  | .plain i => i.fits c
  | .modrm f rm i => f.fits && rm.fits c.asz && i.fits c
  | .fixedReg _ f _ => f.fits

/-- The tail names a memory operand. -/
def Tail.hasMem : Tail → Bool
  | .modrm _ (.mem _) _ => true
  | _ => false

/-- The recorded length is the length of the layout (30_encoding R162). -/
def Instr.lengthOk (c : Ctx) (i : Instr) : Bool :=
  c.ilen == i.form.length c

/-- At most 15 bytes (30_encoding R162). -/
def Instr.shortEnough (c : Ctx) (i : Instr) : Bool :=
  decide (i.form.length c ≤ 15)

/-- The operands fit the sizes (30_encoding R168). -/
def Instr.operandsOk (c : Ctx) (i : Instr) : Bool :=
  i.form.tail.fits c

/-- LOCK stands only before a row that accepts it, with a memory destination (30_encoding R166). -/
def Instr.lockOk (c : Ctx) (i : Instr) : Bool :=
  !c.locked || (i.form.lockable && i.form.tail.hasMem)

/-- An instruction is well formed under a context when it meets every check. -/
def Instr.wf (c : Ctx) (i : Instr) : Bool :=
  i.lengthOk c && i.shortEnough c && i.operandsOk c && i.lockOk c

end Sys2Proof
end

