-- ==== Sys2Proof/Decode.lean ====
section
/-! DEFINITION. The decoder (30_encoding R160 to R212), a total function of the instruction's bytes that rejects by
name, and after it the encoder. The opcode maps follow 30_encoding R201 and R202 row by row. -/

namespace Sys2Proof

/-- Register number of an encoding (10_state R31). -/
def Reg.bits : Reg → BitVec 3
  | .eax => 0
  | .ecx => 1
  | .edx => 2
  | .ebx => 3
  | .esp => 4
  | .ebp => 5
  | .esi => 6
  | .edi => 7

/-- The register of a number (10_state R31). -/
def Reg.ofBits (b : BitVec 3) : Reg :=
  match b.toNat with
  | 0 => .eax
  | 1 => .ecx
  | 2 => .edx
  | 3 => .ebx
  | 4 => .esp
  | 5 => .ebp
  | 6 => .esi
  | _ => .edi

/-- Segment register number (10_state R40, 30_encoding R204). -/
def SReg.bits : SReg → BitVec 3
  | .es => 0
  | .cs => 1
  | .ss => 2
  | .ds => 3
  | .fs => 4
  | .gs => 5

/-- The segment register of a number; 6 and 7 have none (30_encoding R204). -/
def SReg.ofBits (b : BitVec 3) : Option SReg :=
  match b.toNat with
  | 0 => some .es
  | 1 => some .cs
  | 2 => some .ss
  | 3 => some .ds
  | 4 => some .fs
  | 5 => some .gs
  | _ => none

/-- Control register number (30_encoding R205). -/
def CReg.bits : CReg → BitVec 3
  | .cr0 => 0
  | .cr2 => 2
  | .cr3 => 3

/-- The control register of a number: 0, 2, 3 exist (30_encoding R205). -/
def CReg.ofBits (b : BitVec 3) : Option CReg :=
  match b.toNat with
  | 0 => some .cr0
  | 2 => some .cr2
  | 3 => some .cr3
  | _ => none

/-- Debug register number (30_encoding R205). -/
def DReg.bits : DReg → BitVec 3
  | .dr0 => 0
  | .dr1 => 1
  | .dr2 => 2
  | .dr3 => 3
  | .dr6 => 6
  | .dr7 => 7

/-- The debug register of a number: 4 and 5 do not exist (30_encoding R205). -/
def DReg.ofBits (b : BitVec 3) : Option DReg :=
  match b.toNat with
  | 0 => some .dr0
  | 1 => some .dr1
  | 2 => some .dr2
  | 3 => some .dr3
  | 6 => some .dr6
  | 7 => some .dr7
  | _ => none

/-- Condition code number (30_encoding R203). -/
def Cond.bits : Cond → BitVec 4
  | .o => 0
  | .no => 1
  | .b => 2
  | .nb => 3
  | .z => 4
  | .nz => 5
  | .be => 6
  | .nbe => 7
  | .s => 8
  | .ns => 9
  | .p => 10
  | .np => 11
  | .l => 12
  | .nl => 13
  | .le => 14
  | .nle => 15

/-- The condition of a code number (30_encoding R203). -/
def Cond.ofBits (b : BitVec 4) : Cond :=
  match b.toNat with
  | 0 => .o
  | 1 => .no
  | 2 => .b
  | 3 => .nb
  | 4 => .z
  | 5 => .nz
  | 6 => .be
  | 7 => .nbe
  | 8 => .s
  | 9 => .ns
  | 10 => .p
  | 11 => .np
  | 12 => .l
  | 13 => .nl
  | 14 => .le
  | _ => .nle

/-- The prefix bytes (30_encoding R164). -/
def Pfx.byte : Pfx → Byte
  | .seg .es => 0x26
  | .seg .cs => 0x2E
  | .seg .ss => 0x36
  | .seg .ds => 0x3E
  | .seg .fs => 0x64
  | .seg .gs => 0x65
  | .opSize => 0x66
  | .addrSize => 0x67
  | .lock => 0xF0
  | .repne => 0xF2
  | .rep => 0xF3

/-- Number of a 16-bit register part (30_encoding R173). -/
def Base16.bits : Base16 → BitVec 3
  | .bxSi => 0
  | .bxDi => 1
  | .bpSi => 2
  | .bpDi => 3
  | .si => 4
  | .di => 5
  | .bp => 6
  | .bx => 7

/-- The 16-bit register part of a number (30_encoding R173). -/
def Base16.ofBits (b : BitVec 3) : Base16 :=
  match b.toNat with
  | 0 => .bxSi
  | 1 => .bxDi
  | 2 => .bpSi
  | 3 => .bpDi
  | 4 => .si
  | 5 => .di
  | 6 => .bp
  | _ => .bx

/-- Little-endian 16-bit field (30_encoding R161, R180). -/
def half (b0 b1 : Byte) : Half :=
  b1 ++ b0

/-- Little-endian 32-bit field (30_encoding R161, R180). -/
def word (b0 b1 b2 b3 : Byte) : Word :=
  b3 ++ b2 ++ b1 ++ b0

/-- A field read off the front of the bytes, with the rest; none when the bytes run out. -/
abbrev Taken (α : Type) := Option (α × List Byte)

/-- One byte. -/
def take8 : List Byte → Taken Byte
  | b0 :: r => some (b0, r)
  | _ => none

/-- Two bytes. -/
def take16 : List Byte → Taken Half
  | b0 :: b1 :: r => some (half b0 b1, r)
  | _ => none

/-- Four bytes. -/
def take32 : List Byte → Taken Word
  | b0 :: b1 :: b2 :: b3 :: r => some (word b0 b1 b2 b3, r)
  | _ => none

/-- A field of a size: two bytes zero-extended, or four (30_encoding R180: iz, relz, moffs). -/
def takeSized (sz : Size) (bs : List Byte) : Taken Word :=
  match sz with
  | .b32 => take32 bs
  | _ =>
    match take16 bs with
    | some (v, r) => some (v.setWidth 32, r)
    | none => none

/-- A far pointer: offset first, then the selector (30_encoding R180). -/
def takeFar (sz : Size) (bs : List Byte) : Taken (Word × Half) :=
  match takeSized sz bs with
  | none => none
  | some (off, r) =>
    match take16 r with
    | none => none
    | some (sel, r2) => some ((off, sel), r2)

/-- The displacement after a 16-bit register part (30_encoding R173). -/
def takeDisp16 (md : BitVec 2) (bs : List Byte) : Taken Disp16 :=
  if md = 0 then some (.none, bs)
  else if md = 1 then
    match take8 bs with
    | some (v, r) => some (.d8 v, r)
    | none => none
  else
    match take16 bs with
    | some (v, r) => some (.d16 v, r)
    | none => none

/-- The displacement after a 32-bit register part (30_encoding R174). -/
def takeDisp32 (md : BitVec 2) (bs : List Byte) : Taken Disp32 :=
  if md = 0 then some (.none, bs)
  else if md = 1 then
    match take8 bs with
    | some (v, r) => some (.d8 v, r)
    | none => none
  else
    match take32 bs with
    | some (v, r) => some (.d32 v, r)
    | none => none

/-- A 16-bit memory operand (30_encoding R173). -/
def takeMem16 (md : BitVec 2) (rm : BitVec 3) (bs : List Byte) : Taken MemOp :=
  if md = 0 ∧ rm = 6 then
    match take16 bs with
    | some (v, r) => some (.abs16 v, r)
    | none => none
  else
    match takeDisp16 md bs with
    | some (d, r) => some (.ind16 (Base16.ofBits rm) d, r)
    | none => none

/-- The SIB byte and what follows it (30_encoding R175). -/
def takeSib (md : BitVec 2) (bs : List Byte) : Taken MemOp :=
  match bs with
  | [] => none
  | b :: r0 =>
    let scale := b.extractLsb' 6 2
    let index := Reg.ofBits (b.extractLsb' 3 3)
    let base := b.extractLsb' 0 3
    if md = 0 ∧ base = 5 then
      match take32 r0 with
      | some (v, r) => some (.sibAbs scale index v, r)
      | none => none
    else
      match takeDisp32 md r0 with
      | some (d, r) => some (.sib scale index (Reg.ofBits base) d, r)
      | none => none

/-- A 32-bit memory operand (30_encoding R174, R175). -/
def takeMem32 (md : BitVec 2) (rm : BitVec 3) (bs : List Byte) : Taken MemOp :=
  if rm = 4 then takeSib md bs
  else if md = 0 ∧ rm = 5 then
    match take32 bs with
    | some (v, r) => some (.abs32 v, r)
    | none => none
  else
    match takeDisp32 md bs with
    | some (d, r) => some (.ind32 (Reg.ofBits rm) d, r)
    | none => none

/-- The memory operand of a ModRM byte with mod 0 to 2 (30_encoding R171). -/
def takeMem (asz : Size) (md : BitVec 2) (rm : BitVec 3) (bs : List Byte) : Taken MemOp :=
  match asz with
  | .b32 => takeMem32 md rm bs
  | _ => takeMem16 md rm bs

/-- The r/m operand of a ModRM byte (30_encoding R171). -/
def takeRM (asz : Size) (md : BitVec 2) (rm : BitVec 3) (bs : List Byte) : Taken RM :=
  if md = 3 then some (.reg (Reg.ofBits rm), bs)
  else
    match takeMem asz md rm bs with
    | some (m, r) => some (.mem m, r)
    | none => none

/-- What a row with a ModRM byte does with it, once the reg field is known: no row; an r/m operand alone, with an 8-bit
immediate or with an immediate of operand size (lock says that the row takes LOCK); a memory operand; or a
general register whatever mod says (30_encoding R170, R171, R200, R205). -/
inductive ModRow where
  | none (why : Reject)
  | rm (lock : Bool) (f : RM → Instr)
  | rmIb (lock : Bool) (f : RM → Byte → Instr)
  | rmIz (lock : Bool) (f : RM → Word → Instr)
  | mem (f : MemOp → Instr)
  | fixedReg (f : BitVec 2 → Reg → Instr)

/-- What an opcode byte is (30_encoding R201, R202): no row, a prefix, the escape, a row with no operand bytes or with
immediates, or a row with a ModRM byte. In modrm the byte names one instruction and lock says whether that
instruction ever takes LOCK; in group the reg field selects the instruction (R170). -/
inductive Entry where
  | none
  | pfx (p : Pfx)
  | escape
  | plain (i : Instr)
  | ib (f : Byte → Instr)
  | iw (f : Half → Instr)
  | iz (f : Word → Instr)
  | moffs (f : Word → Instr)
  | far (f : Word → Half → Instr)
  | modrm (lock : Bool) (f : BitVec 3 → ModRow)
  | group (f : BitVec 3 → ModRow)

/-- Group 80 by the reg field (30_encoding R201). -/
def group80 (g : BitVec 3) : ModRow :=
  match g.toNat with
  | 0 => .rmIb true fun rm ib => .addRm8Ib rm ib
  | 1 => .rmIb true fun rm ib => .orRm8Ib rm ib
  | 2 => .rmIb true fun rm ib => .adcRm8Ib rm ib
  | 3 => .rmIb true fun rm ib => .sbbRm8Ib rm ib
  | 4 => .rmIb true fun rm ib => .andRm8Ib rm ib
  | 5 => .rmIb true fun rm ib => .subRm8Ib rm ib
  | 6 => .rmIb true fun rm ib => .xorRm8Ib rm ib
  | _ => .rmIb false fun rm ib => .cmpRm8Ib rm ib

/-- Group 81 by the reg field (30_encoding R201). -/
def group81 (g : BitVec 3) : ModRow :=
  match g.toNat with
  | 0 => .rmIz true fun rm iz => .addRmvIz rm iz
  | 1 => .rmIz true fun rm iz => .orRmvIz rm iz
  | 2 => .rmIz true fun rm iz => .adcRmvIz rm iz
  | 3 => .rmIz true fun rm iz => .sbbRmvIz rm iz
  | 4 => .rmIz true fun rm iz => .andRmvIz rm iz
  | 5 => .rmIz true fun rm iz => .subRmvIz rm iz
  | 6 => .rmIz true fun rm iz => .xorRmvIz rm iz
  | _ => .rmIz false fun rm iz => .cmpRmvIz rm iz

/-- Group 83 by the reg field (30_encoding R201). -/
def group83 (g : BitVec 3) : ModRow :=
  match g.toNat with
  | 0 => .rmIb true fun rm ib => .addRmvIbs rm ib
  | 1 => .rmIb true fun rm ib => .orRmvIbs rm ib
  | 2 => .rmIb true fun rm ib => .adcRmvIbs rm ib
  | 3 => .rmIb true fun rm ib => .sbbRmvIbs rm ib
  | 4 => .rmIb true fun rm ib => .andRmvIbs rm ib
  | 5 => .rmIb true fun rm ib => .subRmvIbs rm ib
  | 6 => .rmIb true fun rm ib => .xorRmvIbs rm ib
  | _ => .rmIb false fun rm ib => .cmpRmvIbs rm ib

/-- Group 8F by the reg field (30_encoding R201). -/
def group8F (g : BitVec 3) : ModRow :=
  match g.toNat with
  | 0 => .rm false fun rm => .popRmv rm
  | _ => .none .noRow

/-- Group C0 by the reg field (30_encoding R201). -/
def groupC0 (g : BitVec 3) : ModRow :=
  match g.toNat with
  | 0 => .rmIb false fun rm ib => .rolRm8Ib rm ib
  | 1 => .rmIb false fun rm ib => .rorRm8Ib rm ib
  | 2 => .rmIb false fun rm ib => .rclRm8Ib rm ib
  | 3 => .rmIb false fun rm ib => .rcrRm8Ib rm ib
  | 4 => .rmIb false fun rm ib => .shlRm8Ib rm ib
  | 5 => .rmIb false fun rm ib => .shrRm8Ib rm ib
  | 7 => .rmIb false fun rm ib => .sarRm8Ib rm ib
  | _ => .none .noRow

/-- Group C1 by the reg field (30_encoding R201). -/
def groupC1 (g : BitVec 3) : ModRow :=
  match g.toNat with
  | 0 => .rmIb false fun rm ib => .rolRmvIb rm ib
  | 1 => .rmIb false fun rm ib => .rorRmvIb rm ib
  | 2 => .rmIb false fun rm ib => .rclRmvIb rm ib
  | 3 => .rmIb false fun rm ib => .rcrRmvIb rm ib
  | 4 => .rmIb false fun rm ib => .shlRmvIb rm ib
  | 5 => .rmIb false fun rm ib => .shrRmvIb rm ib
  | 7 => .rmIb false fun rm ib => .sarRmvIb rm ib
  | _ => .none .noRow

/-- Group C6 by the reg field (30_encoding R201). -/
def groupC6 (g : BitVec 3) : ModRow :=
  match g.toNat with
  | 0 => .rmIb false fun rm ib => .movRm8Ib rm ib
  | _ => .none .noRow

/-- Group C7 by the reg field (30_encoding R201). -/
def groupC7 (g : BitVec 3) : ModRow :=
  match g.toNat with
  | 0 => .rmIz false fun rm iz => .movRmvIz rm iz
  | _ => .none .noRow

/-- Group D0 by the reg field (30_encoding R201). -/
def groupD0 (g : BitVec 3) : ModRow :=
  match g.toNat with
  | 0 => .rm false fun rm => .rolRm8One rm
  | 1 => .rm false fun rm => .rorRm8One rm
  | 2 => .rm false fun rm => .rclRm8One rm
  | 3 => .rm false fun rm => .rcrRm8One rm
  | 4 => .rm false fun rm => .shlRm8One rm
  | 5 => .rm false fun rm => .shrRm8One rm
  | 7 => .rm false fun rm => .sarRm8One rm
  | _ => .none .noRow

/-- Group D1 by the reg field (30_encoding R201). -/
def groupD1 (g : BitVec 3) : ModRow :=
  match g.toNat with
  | 0 => .rm false fun rm => .rolRmvOne rm
  | 1 => .rm false fun rm => .rorRmvOne rm
  | 2 => .rm false fun rm => .rclRmvOne rm
  | 3 => .rm false fun rm => .rcrRmvOne rm
  | 4 => .rm false fun rm => .shlRmvOne rm
  | 5 => .rm false fun rm => .shrRmvOne rm
  | 7 => .rm false fun rm => .sarRmvOne rm
  | _ => .none .noRow

/-- Group D2 by the reg field (30_encoding R201). -/
def groupD2 (g : BitVec 3) : ModRow :=
  match g.toNat with
  | 0 => .rm false fun rm => .rolRm8Cl rm
  | 1 => .rm false fun rm => .rorRm8Cl rm
  | 2 => .rm false fun rm => .rclRm8Cl rm
  | 3 => .rm false fun rm => .rcrRm8Cl rm
  | 4 => .rm false fun rm => .shlRm8Cl rm
  | 5 => .rm false fun rm => .shrRm8Cl rm
  | 7 => .rm false fun rm => .sarRm8Cl rm
  | _ => .none .noRow

/-- Group D3 by the reg field (30_encoding R201). -/
def groupD3 (g : BitVec 3) : ModRow :=
  match g.toNat with
  | 0 => .rm false fun rm => .rolRmvCl rm
  | 1 => .rm false fun rm => .rorRmvCl rm
  | 2 => .rm false fun rm => .rclRmvCl rm
  | 3 => .rm false fun rm => .rcrRmvCl rm
  | 4 => .rm false fun rm => .shlRmvCl rm
  | 5 => .rm false fun rm => .shrRmvCl rm
  | 7 => .rm false fun rm => .sarRmvCl rm
  | _ => .none .noRow

/-- Group F6 by the reg field (30_encoding R201). -/
def groupF6 (g : BitVec 3) : ModRow :=
  match g.toNat with
  | 0 => .rmIb false fun rm ib => .testRm8Ib rm ib
  | 2 => .rm true fun rm => .notRm8 rm
  | 3 => .rm true fun rm => .negRm8 rm
  | 4 => .rm false fun rm => .mulRm8 rm
  | 5 => .rm false fun rm => .imulRm8 rm
  | 6 => .rm false fun rm => .divRm8 rm
  | 7 => .rm false fun rm => .idivRm8 rm
  | _ => .none .noRow

/-- Group F7 by the reg field (30_encoding R201). -/
def groupF7 (g : BitVec 3) : ModRow :=
  match g.toNat with
  | 0 => .rmIz false fun rm iz => .testRmvIz rm iz
  | 2 => .rm true fun rm => .notRmv rm
  | 3 => .rm true fun rm => .negRmv rm
  | 4 => .rm false fun rm => .mulRmv rm
  | 5 => .rm false fun rm => .imulRmv rm
  | 6 => .rm false fun rm => .divRmv rm
  | 7 => .rm false fun rm => .idivRmv rm
  | _ => .none .noRow

/-- Group FE by the reg field (30_encoding R201). -/
def groupFE (g : BitVec 3) : ModRow :=
  match g.toNat with
  | 0 => .rm true fun rm => .incRm8 rm
  | 1 => .rm true fun rm => .decRm8 rm
  | _ => .none .noRow

/-- Group FF by the reg field (30_encoding R201). -/
def groupFF (g : BitVec 3) : ModRow :=
  match g.toNat with
  | 0 => .rm true fun rm => .incRmv rm
  | 1 => .rm true fun rm => .decRmv rm
  | 2 => .rm false fun rm => .callRmv rm
  | 3 => .mem fun m => .callFarMem m
  | 4 => .rm false fun rm => .jmpRmv rm
  | 5 => .mem fun m => .jmpFarMem m
  | 6 => .rm false fun rm => .pushRmv rm
  | _ => .none .noRow

/-- Group 0F 00 by the reg field (30_encoding R202). -/
def group0F00 (pe : Bool) (g : BitVec 3) : ModRow :=
  match g.toNat with
  | 0 => if pe then (.rm false fun rm => .sldtRm16 rm) else .none .realModeRow
  | 1 => if pe then (.rm false fun rm => .strRm16 rm) else .none .realModeRow
  | 2 => if pe then (.rm false fun rm => .lldtRm16 rm) else .none .realModeRow
  | 3 => if pe then (.rm false fun rm => .ltrRm16 rm) else .none .realModeRow
  | _ => .none .noRow

/-- Group 0F 01 by the reg field (30_encoding R202). -/
def group0F01 (g : BitVec 3) : ModRow :=
  match g.toNat with
  | 0 => .mem fun m => .sgdtM m
  | 1 => .mem fun m => .sidtM m
  | 2 => .mem fun m => .lgdtM m
  | 3 => .mem fun m => .lidtM m
  | 4 => .rm false fun rm => .smswRm16 rm
  | 6 => .rm false fun rm => .lmswRm16 rm
  | _ => .none .noRow

/-- Opcode bytes 00 to 0F (30_encoding R201). -/
def op0 (lo : BitVec 4) : Entry :=
  match lo.toNat with
  | 0 => .modrm true fun g => .rm true fun rm => .addRm8R8 rm (Reg.ofBits g)
  | 1 => .modrm true fun g => .rm true fun rm => .addRmvRv rm (Reg.ofBits g)
  | 2 => .modrm false fun g => .rm false fun rm => .addR8Rm8 (Reg.ofBits g) rm
  | 3 => .modrm false fun g => .rm false fun rm => .addRvRmv (Reg.ofBits g) rm
  | 4 => .ib fun ib => .addAlIb ib
  | 5 => .iz fun iz => .addEaxIz iz
  | 6 => .plain .pushEs
  | 7 => .plain .popEs
  | 8 => .modrm true fun g => .rm true fun rm => .orRm8R8 rm (Reg.ofBits g)
  | 9 => .modrm true fun g => .rm true fun rm => .orRmvRv rm (Reg.ofBits g)
  | 10 => .modrm false fun g => .rm false fun rm => .orR8Rm8 (Reg.ofBits g) rm
  | 11 => .modrm false fun g => .rm false fun rm => .orRvRmv (Reg.ofBits g) rm
  | 12 => .ib fun ib => .orAlIb ib
  | 13 => .iz fun iz => .orEaxIz iz
  | 14 => .plain .pushCs
  | _ => .escape

/-- Opcode bytes 10 to 1F (30_encoding R201). -/
def op1 (lo : BitVec 4) : Entry :=
  match lo.toNat with
  | 0 => .modrm true fun g => .rm true fun rm => .adcRm8R8 rm (Reg.ofBits g)
  | 1 => .modrm true fun g => .rm true fun rm => .adcRmvRv rm (Reg.ofBits g)
  | 2 => .modrm false fun g => .rm false fun rm => .adcR8Rm8 (Reg.ofBits g) rm
  | 3 => .modrm false fun g => .rm false fun rm => .adcRvRmv (Reg.ofBits g) rm
  | 4 => .ib fun ib => .adcAlIb ib
  | 5 => .iz fun iz => .adcEaxIz iz
  | 6 => .plain .pushSs
  | 7 => .plain .popSs
  | 8 => .modrm true fun g => .rm true fun rm => .sbbRm8R8 rm (Reg.ofBits g)
  | 9 => .modrm true fun g => .rm true fun rm => .sbbRmvRv rm (Reg.ofBits g)
  | 10 => .modrm false fun g => .rm false fun rm => .sbbR8Rm8 (Reg.ofBits g) rm
  | 11 => .modrm false fun g => .rm false fun rm => .sbbRvRmv (Reg.ofBits g) rm
  | 12 => .ib fun ib => .sbbAlIb ib
  | 13 => .iz fun iz => .sbbEaxIz iz
  | 14 => .plain .pushDs
  | _ => .plain .popDs

/-- Opcode bytes 20 to 2F (30_encoding R201). -/
def op2 (lo : BitVec 4) : Entry :=
  match lo.toNat with
  | 0 => .modrm true fun g => .rm true fun rm => .andRm8R8 rm (Reg.ofBits g)
  | 1 => .modrm true fun g => .rm true fun rm => .andRmvRv rm (Reg.ofBits g)
  | 2 => .modrm false fun g => .rm false fun rm => .andR8Rm8 (Reg.ofBits g) rm
  | 3 => .modrm false fun g => .rm false fun rm => .andRvRmv (Reg.ofBits g) rm
  | 4 => .ib fun ib => .andAlIb ib
  | 5 => .iz fun iz => .andEaxIz iz
  | 6 => .pfx (.seg .es)
  | 8 => .modrm true fun g => .rm true fun rm => .subRm8R8 rm (Reg.ofBits g)
  | 9 => .modrm true fun g => .rm true fun rm => .subRmvRv rm (Reg.ofBits g)
  | 10 => .modrm false fun g => .rm false fun rm => .subR8Rm8 (Reg.ofBits g) rm
  | 11 => .modrm false fun g => .rm false fun rm => .subRvRmv (Reg.ofBits g) rm
  | 12 => .ib fun ib => .subAlIb ib
  | 13 => .iz fun iz => .subEaxIz iz
  | 14 => .pfx (.seg .cs)
  | _ => .none

/-- Opcode bytes 30 to 3F (30_encoding R201). -/
def op3 (lo : BitVec 4) : Entry :=
  match lo.toNat with
  | 0 => .modrm true fun g => .rm true fun rm => .xorRm8R8 rm (Reg.ofBits g)
  | 1 => .modrm true fun g => .rm true fun rm => .xorRmvRv rm (Reg.ofBits g)
  | 2 => .modrm false fun g => .rm false fun rm => .xorR8Rm8 (Reg.ofBits g) rm
  | 3 => .modrm false fun g => .rm false fun rm => .xorRvRmv (Reg.ofBits g) rm
  | 4 => .ib fun ib => .xorAlIb ib
  | 5 => .iz fun iz => .xorEaxIz iz
  | 6 => .pfx (.seg .ss)
  | 8 => .modrm false fun g => .rm false fun rm => .cmpRm8R8 rm (Reg.ofBits g)
  | 9 => .modrm false fun g => .rm false fun rm => .cmpRmvRv rm (Reg.ofBits g)
  | 10 => .modrm false fun g => .rm false fun rm => .cmpR8Rm8 (Reg.ofBits g) rm
  | 11 => .modrm false fun g => .rm false fun rm => .cmpRvRmv (Reg.ofBits g) rm
  | 12 => .ib fun ib => .cmpAlIb ib
  | 13 => .iz fun iz => .cmpEaxIz iz
  | 14 => .pfx (.seg .ds)
  | _ => .none

/-- Opcode bytes 40 to 4F (30_encoding R201). -/
def op4 (lo : BitVec 4) : Entry :=
  if lo.getLsbD 3 = false then .plain (.incRv (Reg.ofBits (lo.extractLsb' 0 3)))
  else .plain (.decRv (Reg.ofBits (lo.extractLsb' 0 3)))

/-- Opcode bytes 50 to 5F (30_encoding R201). -/
def op5 (lo : BitVec 4) : Entry :=
  if lo.getLsbD 3 = false then .plain (.pushRv (Reg.ofBits (lo.extractLsb' 0 3)))
  else .plain (.popRv (Reg.ofBits (lo.extractLsb' 0 3)))

/-- Opcode bytes 60 to 6F (30_encoding R201). -/
def op6 (lo : BitVec 4) : Entry :=
  match lo.toNat with
  | 0 => .plain .pusha
  | 1 => .plain .popa
  | 4 => .pfx (.seg .fs)
  | 5 => .pfx (.seg .gs)
  | 6 => .pfx .opSize
  | 7 => .pfx .addrSize
  | 8 => .iz fun iz => .pushIz iz
  | 9 => .modrm false fun g => .rmIz false fun rm iz => .imulRvRmvIz (Reg.ofBits g) rm iz
  | 10 => .ib fun ib => .pushIbs ib
  | 11 => .modrm false fun g => .rmIb false fun rm ib => .imulRvRmvIbs (Reg.ofBits g) rm ib
  | 12 => .plain .insB
  | 13 => .plain .insV
  | 14 => .plain .outsB
  | 15 => .plain .outsV
  | _ => .none

/-- Opcode bytes 70 to 7F (30_encoding R201). -/
def op7 (lo : BitVec 4) : Entry :=
  .ib fun rel => .jccRel8 (Cond.ofBits lo) rel

/-- Opcode bytes 80 to 8F (30_encoding R201). -/
def op8 (lo : BitVec 4) : Entry :=
  match lo.toNat with
  | 0 => .group group80
  | 1 => .group group81
  | 3 => .group group83
  | 4 => .modrm false fun g => .rm false fun rm => .testRm8R8 rm (Reg.ofBits g)
  | 5 => .modrm false fun g => .rm false fun rm => .testRmvRv rm (Reg.ofBits g)
  | 6 => .modrm true fun g => .rm true fun rm => .xchgRm8R8 rm (Reg.ofBits g)
  | 7 => .modrm true fun g => .rm true fun rm => .xchgRmvRv rm (Reg.ofBits g)
  | 8 => .modrm false fun g => .rm false fun rm => .movRm8R8 rm (Reg.ofBits g)
  | 9 => .modrm false fun g => .rm false fun rm => .movRmvRv rm (Reg.ofBits g)
  | 10 => .modrm false fun g => .rm false fun rm => .movR8Rm8 (Reg.ofBits g) rm
  | 11 => .modrm false fun g => .rm false fun rm => .movRvRmv (Reg.ofBits g) rm
  | 12 => .modrm false fun g =>
      match SReg.ofBits g with
      | some sr => .rm false fun rm => .movRm16Sreg rm sr
      | none => .none .invalidForm
  | 13 => .modrm false fun g => .mem fun m => .leaRvM (Reg.ofBits g) m
  | 14 => .modrm false fun g =>
      match SReg.ofBits g with
      | some .cs => .none .invalidForm
      | some sr => .rm false fun rm => .movSregRm16 sr rm
      | none => .none .invalidForm
  | 15 => .group group8F
  | _ => .none

/-- Opcode bytes 90 to 9F (30_encoding R201). -/
def op9 (lo : BitVec 4) : Entry :=
  match lo.toNat with
  | 0 => .plain .nop
  | 1 => .plain .xchgEaxEcx
  | 2 => .plain .xchgEaxEdx
  | 3 => .plain .xchgEaxEbx
  | 4 => .plain .xchgEaxEsp
  | 5 => .plain .xchgEaxEbp
  | 6 => .plain .xchgEaxEsi
  | 7 => .plain .xchgEaxEdi
  | 8 => .plain .cbw
  | 9 => .plain .cwd
  | 10 => .far fun off sel => .callFarPtr off sel
  | 12 => .plain .pushf
  | 13 => .plain .popf
  | 14 => .plain .sahf
  | 15 => .plain .lahf
  | _ => .none

/-- Opcode bytes A0 to AF (30_encoding R201). -/
def opA (lo : BitVec 4) : Entry :=
  match lo.toNat with
  | 0 => .moffs fun off => .movAlMoffs8 off
  | 1 => .moffs fun off => .movEaxMoffsv off
  | 2 => .moffs fun off => .movMoffs8Al off
  | 3 => .moffs fun off => .movMoffsvEax off
  | 4 => .plain .movsB
  | 5 => .plain .movsV
  | 6 => .plain .cmpsB
  | 7 => .plain .cmpsV
  | 8 => .ib fun ib => .testAlIb ib
  | 9 => .iz fun iz => .testEaxIz iz
  | 10 => .plain .stosB
  | 11 => .plain .stosV
  | 12 => .plain .lodsB
  | 13 => .plain .lodsV
  | 14 => .plain .scasB
  | _ => .plain .scasV

/-- Opcode bytes B0 to BF (30_encoding R201). -/
def opB (lo : BitVec 4) : Entry :=
  if lo.getLsbD 3 = false then .ib fun ib => .movR8Ib (Reg.ofBits (lo.extractLsb' 0 3)) ib
  else .iz fun iz => .movRvIz (Reg.ofBits (lo.extractLsb' 0 3)) iz

/-- Opcode bytes C0 to CF (30_encoding R201). -/
def opC (lo : BitVec 4) : Entry :=
  match lo.toNat with
  | 0 => .group groupC0
  | 1 => .group groupC1
  | 2 => .iw fun iw => .retIw iw
  | 3 => .plain .ret
  | 4 => .modrm false fun g => .mem fun m => .lesRvMem (Reg.ofBits g) m
  | 5 => .modrm false fun g => .mem fun m => .ldsRvMem (Reg.ofBits g) m
  | 6 => .group groupC6
  | 7 => .group groupC7
  | 9 => .plain .leave
  | 10 => .iw fun iw => .retfIw iw
  | 11 => .plain .retf
  | 12 => .plain .int3
  | 13 => .ib fun ib => .intIb ib
  | 14 => .plain .into
  | 15 => .plain .iret
  | _ => .none

/-- Opcode bytes D0 to DF (30_encoding R201). -/
def opD (lo : BitVec 4) : Entry :=
  match lo.toNat with
  | 0 => .group groupD0
  | 1 => .group groupD1
  | 2 => .group groupD2
  | 3 => .group groupD3
  | 7 => .plain .xlat
  | _ => .none

/-- Opcode bytes E0 to EF (30_encoding R201). -/
def opE (lo : BitVec 4) : Entry :=
  match lo.toNat with
  | 0 => .ib fun rel => .loopneRel8 rel
  | 1 => .ib fun rel => .loopeRel8 rel
  | 2 => .ib fun rel => .loopRel8 rel
  | 3 => .ib fun rel => .jcxzRel8 rel
  | 4 => .ib fun ib => .inAlIb ib
  | 5 => .ib fun ib => .inEaxIb ib
  | 6 => .ib fun ib => .outIbAl ib
  | 7 => .ib fun ib => .outIbEax ib
  | 8 => .iz fun rel => .callRelz rel
  | 9 => .iz fun rel => .jmpRelz rel
  | 10 => .far fun off sel => .jmpFarPtr off sel
  | 11 => .ib fun rel => .jmpRel8 rel
  | 12 => .plain .inAlDx
  | 13 => .plain .inEaxDx
  | 14 => .plain .outDxAl
  | _ => .plain .outDxEax

/-- Opcode bytes F0 to FF (30_encoding R201). -/
def opF (lo : BitVec 4) : Entry :=
  match lo.toNat with
  | 0 => .pfx .lock
  | 2 => .pfx .repne
  | 3 => .pfx .rep
  | 4 => .plain .hlt
  | 5 => .plain .cmc
  | 6 => .group groupF6
  | 7 => .group groupF7
  | 8 => .plain .clc
  | 9 => .plain .stc
  | 10 => .plain .cli
  | 11 => .plain .sti
  | 12 => .plain .cld
  | 13 => .plain .std
  | 14 => .group groupFE
  | 15 => .group groupFF
  | _ => .none

/-- The one-byte opcode map (30_encoding R201). -/
def opcode1 (b : Byte) : Entry :=
  let lo := b.extractLsb' 0 4
  match (b.extractLsb' 4 4).toNat with
  | 0 => op0 lo
  | 1 => op1 lo
  | 2 => op2 lo
  | 3 => op3 lo
  | 4 => op4 lo
  | 5 => op5 lo
  | 6 => op6 lo
  | 7 => op7 lo
  | 8 => op8 lo
  | 9 => op9 lo
  | 10 => opA lo
  | 11 => opB lo
  | 12 => opC lo
  | 13 => opD lo
  | 14 => opE lo
  | _ => opF lo

/-- Opcode bytes 0F 00 to 0F 0F (30_encoding R202). -/
def op0F0 (pe : Bool) (lo : BitVec 4) : Entry :=
  match lo.toNat with
  | 0 => .group (group0F00 pe)
  | 1 => .group group0F01
  | 6 => .plain .clts
  | _ => .none

/-- Opcode bytes 0F 20 to 0F 2F (30_encoding R202). -/
def op0F2 (lo : BitVec 4) : Entry :=
  match lo.toNat with
  | 0 => .modrm false fun g =>
      match CReg.ofBits g with
      | some k => .fixedReg fun md r => .movR32Cr md r k
      | none => .none .invalidForm
  | 1 => .modrm false fun g =>
      match DReg.ofBits g with
      | some k => .fixedReg fun md r => .movR32Dr md r k
      | none => .none .invalidForm
  | 2 => .modrm false fun g =>
      match CReg.ofBits g with
      | some k => .fixedReg fun md r => .movCrR32 md k r
      | none => .none .invalidForm
  | 3 => .modrm false fun g =>
      match DReg.ofBits g with
      | some k => .fixedReg fun md r => .movDrR32 md k r
      | none => .none .invalidForm
  | _ => .none

/-- Opcode bytes 0F 80 to 0F 8F (30_encoding R202). -/
def op0F8 (lo : BitVec 4) : Entry :=
  .iz fun rel => .jccRelz (Cond.ofBits lo) rel

/-- Opcode bytes 0F 90 to 0F 9F (30_encoding R202). -/
def op0F9 (lo : BitVec 4) : Entry :=
  .modrm false fun g => .rm false fun rm => .setccRm8 (Cond.ofBits lo) g rm

/-- Opcode bytes 0F A0 to 0F AF (30_encoding R202). -/
def op0FA (lo : BitVec 4) : Entry :=
  match lo.toNat with
  | 0 => .plain .pushFs
  | 1 => .plain .popFs
  | 4 => .modrm false fun g => .rmIb false fun rm ib => .shldRmvRvIb rm (Reg.ofBits g) ib
  | 5 => .modrm false fun g => .rm false fun rm => .shldRmvRvCl rm (Reg.ofBits g)
  | 8 => .plain .pushGs
  | 9 => .plain .popGs
  | 12 => .modrm false fun g => .rmIb false fun rm ib => .shrdRmvRvIb rm (Reg.ofBits g) ib
  | 13 => .modrm false fun g => .rm false fun rm => .shrdRmvRvCl rm (Reg.ofBits g)
  | 15 => .modrm false fun g => .rm false fun rm => .imulRvRmv (Reg.ofBits g) rm
  | _ => .none

/-- Opcode bytes 0F B0 to 0F BF (30_encoding R202). -/
def op0FB (lo : BitVec 4) : Entry :=
  match lo.toNat with
  | 2 => .modrm false fun g => .mem fun m => .lssRvMem (Reg.ofBits g) m
  | 4 => .modrm false fun g => .mem fun m => .lfsRvMem (Reg.ofBits g) m
  | 5 => .modrm false fun g => .mem fun m => .lgsRvMem (Reg.ofBits g) m
  | 6 => .modrm false fun g => .rm false fun rm => .movzxRvRm8 (Reg.ofBits g) rm
  | 7 => .modrm false fun g => .rm false fun rm => .movzxRvRm16 (Reg.ofBits g) rm
  | 14 => .modrm false fun g => .rm false fun rm => .movsxRvRm8 (Reg.ofBits g) rm
  | 15 => .modrm false fun g => .rm false fun rm => .movsxRvRm16 (Reg.ofBits g) rm
  | _ => .none

/-- The two-byte opcode map (30_encoding R202); pe is CR0.PE, which some rows require (R200, R211). -/
def opcode2 (pe : Bool) (b : Byte) : Entry :=
  let lo := b.extractLsb' 0 4
  match (b.extractLsb' 4 4).toNat with
  | 0 => op0F0 pe lo
  | 2 => op0F2 lo
  | 8 => op0F8 lo
  | 9 => op0F9 lo
  | 10 => op0FA lo
  | 11 => op0FB lo
  | _ => .none

/-- What the decoder answers: an instruction under its context, with the bytes after it, a rejection by name, or that the bytes ran out
before the instruction was complete. -/
inductive Decoded where
  | ok (c : Ctx) (i : Instr) (rest : List Byte)
  | reject (why : Reject)
  | short
  deriving DecidableEq, Repr

/-- The prefix context with its length filled in: total bytes less the bytes left (30_encoding R162). -/
def Ctx.closed (c : Ctx) (total : Nat) (rest : List Byte) : Ctx :=
  { c with ilen := total - rest.length }

/-- Finish a row from a field that was taken. -/
def Taken.finish {α : Type} (t : Taken α) (c : Ctx) (total : Nat) (f : α → Instr) : Decoded :=
  match t with
  | some (v, r) => .ok (c.closed total r) (f v) r
  | none => .short

/-- The operand bytes of a row whose ModRM byte is known. A rejected form or LOCK is known here, before any later byte
(30_encoding R166, R211; 60_exceptions R510 row 2). -/
def decodeModRow (c : Ctx) (total : Nat) (md : BitVec 2) (rm : BitVec 3) (row : ModRow) (bs : List Byte) : Decoded :=
  match row with
  | .none why => .reject why
  | .rm lock f =>
    if c.locked && !(lock && md != 3) then .reject .lockNotTaken
    else (takeRM c.asz md rm bs).finish c total f
  | .rmIb lock f =>
    if c.locked && !(lock && md != 3) then .reject .lockNotTaken
    else
      match takeRM c.asz md rm bs with
      | none => .short
      | some (x, r) => (take8 r).finish c total fun v => f x v
  | .rmIz lock f =>
    if c.locked && !(lock && md != 3) then .reject .lockNotTaken
    else
      match takeRM c.asz md rm bs with
      | none => .short
      | some (x, r) => (takeSized c.osz r).finish c total fun v => f x v
  | .mem f =>
    if md = 3 then .reject .invalidForm
    else if c.locked then .reject .lockNotTaken
    else (takeMem c.asz md rm bs).finish c total f
  | .fixedReg f =>
    if c.locked then .reject .lockNotTaken
    else .ok (c.closed total bs) (f md (Reg.ofBits rm)) bs

/-- The ModRM byte of a row (30_encoding R171). -/
def decodeModRM (c : Ctx) (total : Nat) (f : BitVec 3 → ModRow) (bs : List Byte) : Decoded :=
  match bs with
  | [] => .short
  | b :: r => decodeModRow c total (b.extractLsb' 6 2) (b.extractLsb' 0 3) (f (b.extractLsb' 3 3)) r

/-- The bytes after the opcode (30_encoding R160, R182). LOCK before an opcode that never takes it is rejected at the
opcode, and before a group at the ModRM byte (60_exceptions R510 row 2, log 16). -/
def decodeEntry (c : Ctx) (total : Nat) (e : Entry) (bs : List Byte) : Decoded :=
  match e with
  | .none => .reject .noRow
  | .pfx _ => .reject .noRow
  | .escape => .reject .noRow
  | .group f => decodeModRM c total f bs
  | .modrm lock f =>
    if c.locked && !lock then .reject .lockNotTaken else decodeModRM c total f bs
  | .plain i =>
    if c.locked then .reject .lockNotTaken else .ok (c.closed total bs) i bs
  | .ib f =>
    if c.locked then .reject .lockNotTaken else (take8 bs).finish c total f
  | .iw f =>
    if c.locked then .reject .lockNotTaken else (take16 bs).finish c total f
  | .iz f =>
    if c.locked then .reject .lockNotTaken else (takeSized c.osz bs).finish c total f
  | .moffs f =>
    if c.locked then .reject .lockNotTaken else (takeSized c.asz bs).finish c total f
  | .far f =>
    if c.locked then .reject .lockNotTaken
    else (takeFar c.osz bs).finish c total fun v => f v.1 v.2

/-- Prefix bytes, then the opcode (30_encoding R160, R164, R169). seen is the prefixes so far, in order. -/
def decodeFrom (pe big : Bool) (total : Nat) (seen : List Pfx) : List Byte → Decoded
  | [] => .short
  | b :: r =>
    match opcode1 b with
    | .pfx p => decodeFrom pe big total (seen ++ [p]) r
    | .escape =>
      match r with
      | [] => .short
      | b2 :: r2 => decodeEntry ⟨seen, big, 0⟩ total (opcode2 pe b2) r2
    | e => decodeEntry ⟨seen, big, 0⟩ total e r

/-- Decode the first instruction of a list of bytes; pe is CR0.PE and big the code segment's default-size bit
(30_encoding R160, R168, R200). -/
def decode (pe big : Bool) (bs : List Byte) : Decoded :=
  decodeFrom pe big bs.length [] bs

/-- The low bytes of a number, least significant first. -/
def littleEndian : Nat → Nat → List Byte
  | 0, _ => []
  | n + 1, v => BitVec.ofNat 8 v :: littleEndian n (v / 256)

/-- The longest instruction, in bytes (30_encoding R162). -/
def maxLength : Nat := 15

/-- The bytes of a table word, byte k being bits 8k+7 to 8k, zero above its nbits, up to the longest instruction. -/
def tableBytes (nbits w : Nat) : List Byte :=
  littleEndian maxLength (w % 2 ^ nbits)

/-- The instruction the decoder reads from a table word: 16-bit code, and PE = 1 so that the rows that require it are
seen (log 20). -/
def decodeTableWord (nbits w : Nat) : Option Instr :=
  match decode true false (tableBytes nbits w) with
  | .ok _ i _ => some i
  | .reject _ => none
  | .short => none

/-- The reg field of a layout as bits. -/
def RegField.bits (digit : BitVec 3) : RegField → BitVec 3
  | .digit => digit
  | .reg r => r.bits
  | .sreg r => r.bits
  | .sregLoad r => r.bits
  | .control k => k.bits
  | .debugReg k => k.bits
  | .ignored v => v

/-- A ModRM or SIB byte from its fields (30_encoding R171, R175). -/
def threeFields (hi : BitVec 2) (mid lo : BitVec 3) : Byte :=
  hi ++ mid ++ lo

/-- A 16-bit value as bytes. -/
def halfBytes (v : Half) : List Byte :=
  [v.extractLsb' 0 8, v.extractLsb' 8 8]

/-- A 32-bit value as bytes. -/
def wordBytes (v : Word) : List Byte :=
  [v.extractLsb' 0 8, v.extractLsb' 8 8, v.extractLsb' 16 8, v.extractLsb' 24 8]

/-- A value of a size as bytes. -/
def sizedBytes (sz : Size) (v : Word) : List Byte :=
  match sz with
  | .b32 => wordBytes v
  | _ => halfBytes (v.setWidth 16)

/-- mod field and bytes of a 16-bit displacement (30_encoding R173). -/
def Disp16.encode : Disp16 → BitVec 2 × List Byte
  | .none => (0, [])
  | .d8 v => (1, [v])
  | .d16 v => (2, halfBytes v)

/-- mod field and bytes of a 32-bit displacement (30_encoding R174). -/
def Disp32.encode : Disp32 → BitVec 2 × List Byte
  | .none => (0, [])
  | .d8 v => (1, [v])
  | .d32 v => (2, wordBytes v)

/-- The ModRM byte of a memory operand with its reg field, and what follows it (30_encoding R173 to R175). -/
def MemOp.encode (reg : BitVec 3) : MemOp → List Byte
  | .abs16 v => threeFields 0 reg 6 :: halfBytes v
  | .ind16 b d => threeFields d.encode.1 reg b.bits :: d.encode.2
  | .abs32 v => threeFields 0 reg 5 :: wordBytes v
  | .ind32 b d => threeFields d.encode.1 reg b.bits :: d.encode.2
  | .sib sc ix b d => threeFields d.encode.1 reg 4 :: threeFields sc ix.bits b.bits :: d.encode.2
  | .sibAbs sc ix v => threeFields 0 reg 4 :: threeFields sc ix.bits 5 :: wordBytes v

/-- The ModRM byte of an r/m operand with its reg field, and what follows it (30_encoding R171). -/
def RM.encode (reg : BitVec 3) : RM → List Byte
  | .reg r => [threeFields 3 reg r.bits]
  | .mem m => m.encode reg

/-- Immediate bytes (30_encoding R180). -/
def Imm.encode (c : Ctx) : Imm → List Byte
  | .none => []
  | .ib v => [v]
  | .iw v => halfBytes v
  | .iz v => sizedBytes c.osz v
  | .moffs v => sizedBytes c.asz v
  | .far off sel => sizedBytes c.osz off ++ halfBytes sel

/-- The bytes after the opcode. -/
def Tail.encode (c : Ctx) (digit : BitVec 3) : Tail → List Byte
  | .plain i => i.encode c
  | .modrm f rm i => rm.encode (f.bits digit) ++ i.encode c
  | .fixedReg md f r => [threeFields md (f.bits digit) r.bits]

/-- The opcode bytes of a row, the register and condition numbers in them included, and the sub-opcode of a group row
(30_encoding R170, R201, R202). -/
def Instr.opcode : Instr → List Byte × BitVec 3
  | .addRm8R8 _ _ => ([0x00], 0)
  | .addRmvRv _ _ => ([0x01], 0)
  | .addR8Rm8 _ _ => ([0x02], 0)
  | .addRvRmv _ _ => ([0x03], 0)
  | .addAlIb _ => ([0x04], 0)
  | .addEaxIz _ => ([0x05], 0)
  | .orRm8R8 _ _ => ([0x08], 0)
  | .orRmvRv _ _ => ([0x09], 0)
  | .orR8Rm8 _ _ => ([0x0A], 0)
  | .orRvRmv _ _ => ([0x0B], 0)
  | .orAlIb _ => ([0x0C], 0)
  | .orEaxIz _ => ([0x0D], 0)
  | .adcRm8R8 _ _ => ([0x10], 0)
  | .adcRmvRv _ _ => ([0x11], 0)
  | .adcR8Rm8 _ _ => ([0x12], 0)
  | .adcRvRmv _ _ => ([0x13], 0)
  | .adcAlIb _ => ([0x14], 0)
  | .adcEaxIz _ => ([0x15], 0)
  | .sbbRm8R8 _ _ => ([0x18], 0)
  | .sbbRmvRv _ _ => ([0x19], 0)
  | .sbbR8Rm8 _ _ => ([0x1A], 0)
  | .sbbRvRmv _ _ => ([0x1B], 0)
  | .sbbAlIb _ => ([0x1C], 0)
  | .sbbEaxIz _ => ([0x1D], 0)
  | .andRm8R8 _ _ => ([0x20], 0)
  | .andRmvRv _ _ => ([0x21], 0)
  | .andR8Rm8 _ _ => ([0x22], 0)
  | .andRvRmv _ _ => ([0x23], 0)
  | .andAlIb _ => ([0x24], 0)
  | .andEaxIz _ => ([0x25], 0)
  | .subRm8R8 _ _ => ([0x28], 0)
  | .subRmvRv _ _ => ([0x29], 0)
  | .subR8Rm8 _ _ => ([0x2A], 0)
  | .subRvRmv _ _ => ([0x2B], 0)
  | .subAlIb _ => ([0x2C], 0)
  | .subEaxIz _ => ([0x2D], 0)
  | .xorRm8R8 _ _ => ([0x30], 0)
  | .xorRmvRv _ _ => ([0x31], 0)
  | .xorR8Rm8 _ _ => ([0x32], 0)
  | .xorRvRmv _ _ => ([0x33], 0)
  | .xorAlIb _ => ([0x34], 0)
  | .xorEaxIz _ => ([0x35], 0)
  | .cmpRm8R8 _ _ => ([0x38], 0)
  | .cmpRmvRv _ _ => ([0x39], 0)
  | .cmpR8Rm8 _ _ => ([0x3A], 0)
  | .cmpRvRmv _ _ => ([0x3B], 0)
  | .cmpAlIb _ => ([0x3C], 0)
  | .cmpEaxIz _ => ([0x3D], 0)
  | .addRm8Ib _ _ => ([0x80], 0)
  | .addRmvIz _ _ => ([0x81], 0)
  | .addRmvIbs _ _ => ([0x83], 0)
  | .orRm8Ib _ _ => ([0x80], 1)
  | .orRmvIz _ _ => ([0x81], 1)
  | .orRmvIbs _ _ => ([0x83], 1)
  | .adcRm8Ib _ _ => ([0x80], 2)
  | .adcRmvIz _ _ => ([0x81], 2)
  | .adcRmvIbs _ _ => ([0x83], 2)
  | .sbbRm8Ib _ _ => ([0x80], 3)
  | .sbbRmvIz _ _ => ([0x81], 3)
  | .sbbRmvIbs _ _ => ([0x83], 3)
  | .andRm8Ib _ _ => ([0x80], 4)
  | .andRmvIz _ _ => ([0x81], 4)
  | .andRmvIbs _ _ => ([0x83], 4)
  | .subRm8Ib _ _ => ([0x80], 5)
  | .subRmvIz _ _ => ([0x81], 5)
  | .subRmvIbs _ _ => ([0x83], 5)
  | .xorRm8Ib _ _ => ([0x80], 6)
  | .xorRmvIz _ _ => ([0x81], 6)
  | .xorRmvIbs _ _ => ([0x83], 6)
  | .cmpRm8Ib _ _ => ([0x80], 7)
  | .cmpRmvIz _ _ => ([0x81], 7)
  | .cmpRmvIbs _ _ => ([0x83], 7)
  | .pushEs => ([0x06], 0)
  | .popEs => ([0x07], 0)
  | .pushCs => ([0x0E], 0)
  | .pushSs => ([0x16], 0)
  | .popSs => ([0x17], 0)
  | .pushDs => ([0x1E], 0)
  | .popDs => ([0x1F], 0)
  | .pushFs => ([0x0F, 0xA0], 0)
  | .popFs => ([0x0F, 0xA1], 0)
  | .pushGs => ([0x0F, 0xA8], 0)
  | .popGs => ([0x0F, 0xA9], 0)
  | .incRv r => ([0x40 ||| r.bits.setWidth 8], 0)
  | .decRv r => ([0x48 ||| r.bits.setWidth 8], 0)
  | .pushRv r => ([0x50 ||| r.bits.setWidth 8], 0)
  | .popRv r => ([0x58 ||| r.bits.setWidth 8], 0)
  | .pusha => ([0x60], 0)
  | .popa => ([0x61], 0)
  | .pushIz _ => ([0x68], 0)
  | .imulRvRmvIz _ _ _ => ([0x69], 0)
  | .pushIbs _ => ([0x6A], 0)
  | .imulRvRmvIbs _ _ _ => ([0x6B], 0)
  | .insB => ([0x6C], 0)
  | .insV => ([0x6D], 0)
  | .outsB => ([0x6E], 0)
  | .outsV => ([0x6F], 0)
  | .jccRel8 cc _ => ([0x70 ||| cc.bits.setWidth 8], 0)
  | .testRm8R8 _ _ => ([0x84], 0)
  | .testRmvRv _ _ => ([0x85], 0)
  | .xchgRm8R8 _ _ => ([0x86], 0)
  | .xchgRmvRv _ _ => ([0x87], 0)
  | .movRm8R8 _ _ => ([0x88], 0)
  | .movRmvRv _ _ => ([0x89], 0)
  | .movR8Rm8 _ _ => ([0x8A], 0)
  | .movRvRmv _ _ => ([0x8B], 0)
  | .movRm16Sreg _ _ => ([0x8C], 0)
  | .leaRvM _ _ => ([0x8D], 0)
  | .movSregRm16 _ _ => ([0x8E], 0)
  | .popRmv _ => ([0x8F], 0)
  | .nop => ([0x90], 0)
  | .xchgEaxEcx => ([0x91], 0)
  | .xchgEaxEdx => ([0x92], 0)
  | .xchgEaxEbx => ([0x93], 0)
  | .xchgEaxEsp => ([0x94], 0)
  | .xchgEaxEbp => ([0x95], 0)
  | .xchgEaxEsi => ([0x96], 0)
  | .xchgEaxEdi => ([0x97], 0)
  | .cbw => ([0x98], 0)
  | .cwd => ([0x99], 0)
  | .callFarPtr _ _ => ([0x9A], 0)
  | .pushf => ([0x9C], 0)
  | .popf => ([0x9D], 0)
  | .sahf => ([0x9E], 0)
  | .lahf => ([0x9F], 0)
  | .movAlMoffs8 _ => ([0xA0], 0)
  | .movEaxMoffsv _ => ([0xA1], 0)
  | .movMoffs8Al _ => ([0xA2], 0)
  | .movMoffsvEax _ => ([0xA3], 0)
  | .movsB => ([0xA4], 0)
  | .movsV => ([0xA5], 0)
  | .cmpsB => ([0xA6], 0)
  | .cmpsV => ([0xA7], 0)
  | .stosB => ([0xAA], 0)
  | .stosV => ([0xAB], 0)
  | .lodsB => ([0xAC], 0)
  | .lodsV => ([0xAD], 0)
  | .scasB => ([0xAE], 0)
  | .scasV => ([0xAF], 0)
  | .testAlIb _ => ([0xA8], 0)
  | .testEaxIz _ => ([0xA9], 0)
  | .movR8Ib r _ => ([0xB0 ||| r.bits.setWidth 8], 0)
  | .movRvIz r _ => ([0xB8 ||| r.bits.setWidth 8], 0)
  | .rolRm8Ib _ _ => ([0xC0], 0)
  | .rorRm8Ib _ _ => ([0xC0], 1)
  | .rclRm8Ib _ _ => ([0xC0], 2)
  | .rcrRm8Ib _ _ => ([0xC0], 3)
  | .shlRm8Ib _ _ => ([0xC0], 4)
  | .shrRm8Ib _ _ => ([0xC0], 5)
  | .sarRm8Ib _ _ => ([0xC0], 7)
  | .rolRmvIb _ _ => ([0xC1], 0)
  | .rorRmvIb _ _ => ([0xC1], 1)
  | .rclRmvIb _ _ => ([0xC1], 2)
  | .rcrRmvIb _ _ => ([0xC1], 3)
  | .shlRmvIb _ _ => ([0xC1], 4)
  | .shrRmvIb _ _ => ([0xC1], 5)
  | .sarRmvIb _ _ => ([0xC1], 7)
  | .rolRm8One _ => ([0xD0], 0)
  | .rorRm8One _ => ([0xD0], 1)
  | .rclRm8One _ => ([0xD0], 2)
  | .rcrRm8One _ => ([0xD0], 3)
  | .shlRm8One _ => ([0xD0], 4)
  | .shrRm8One _ => ([0xD0], 5)
  | .sarRm8One _ => ([0xD0], 7)
  | .rolRmvOne _ => ([0xD1], 0)
  | .rorRmvOne _ => ([0xD1], 1)
  | .rclRmvOne _ => ([0xD1], 2)
  | .rcrRmvOne _ => ([0xD1], 3)
  | .shlRmvOne _ => ([0xD1], 4)
  | .shrRmvOne _ => ([0xD1], 5)
  | .sarRmvOne _ => ([0xD1], 7)
  | .rolRm8Cl _ => ([0xD2], 0)
  | .rorRm8Cl _ => ([0xD2], 1)
  | .rclRm8Cl _ => ([0xD2], 2)
  | .rcrRm8Cl _ => ([0xD2], 3)
  | .shlRm8Cl _ => ([0xD2], 4)
  | .shrRm8Cl _ => ([0xD2], 5)
  | .sarRm8Cl _ => ([0xD2], 7)
  | .rolRmvCl _ => ([0xD3], 0)
  | .rorRmvCl _ => ([0xD3], 1)
  | .rclRmvCl _ => ([0xD3], 2)
  | .rcrRmvCl _ => ([0xD3], 3)
  | .shlRmvCl _ => ([0xD3], 4)
  | .shrRmvCl _ => ([0xD3], 5)
  | .sarRmvCl _ => ([0xD3], 7)
  | .retIw _ => ([0xC2], 0)
  | .ret => ([0xC3], 0)
  | .lesRvMem _ _ => ([0xC4], 0)
  | .ldsRvMem _ _ => ([0xC5], 0)
  | .movRm8Ib _ _ => ([0xC6], 0)
  | .movRmvIz _ _ => ([0xC7], 0)
  | .leave => ([0xC9], 0)
  | .retfIw _ => ([0xCA], 0)
  | .retf => ([0xCB], 0)
  | .int3 => ([0xCC], 0)
  | .intIb _ => ([0xCD], 0)
  | .into => ([0xCE], 0)
  | .iret => ([0xCF], 0)
  | .xlat => ([0xD7], 0)
  | .loopneRel8 _ => ([0xE0], 0)
  | .loopeRel8 _ => ([0xE1], 0)
  | .loopRel8 _ => ([0xE2], 0)
  | .jcxzRel8 _ => ([0xE3], 0)
  | .inAlIb _ => ([0xE4], 0)
  | .inEaxIb _ => ([0xE5], 0)
  | .outIbAl _ => ([0xE6], 0)
  | .outIbEax _ => ([0xE7], 0)
  | .callRelz _ => ([0xE8], 0)
  | .jmpRelz _ => ([0xE9], 0)
  | .jmpFarPtr _ _ => ([0xEA], 0)
  | .jmpRel8 _ => ([0xEB], 0)
  | .inAlDx => ([0xEC], 0)
  | .inEaxDx => ([0xED], 0)
  | .outDxAl => ([0xEE], 0)
  | .outDxEax => ([0xEF], 0)
  | .hlt => ([0xF4], 0)
  | .cmc => ([0xF5], 0)
  | .testRm8Ib _ _ => ([0xF6], 0)
  | .notRm8 _ => ([0xF6], 2)
  | .negRm8 _ => ([0xF6], 3)
  | .mulRm8 _ => ([0xF6], 4)
  | .imulRm8 _ => ([0xF6], 5)
  | .divRm8 _ => ([0xF6], 6)
  | .idivRm8 _ => ([0xF6], 7)
  | .testRmvIz _ _ => ([0xF7], 0)
  | .notRmv _ => ([0xF7], 2)
  | .negRmv _ => ([0xF7], 3)
  | .mulRmv _ => ([0xF7], 4)
  | .imulRmv _ => ([0xF7], 5)
  | .divRmv _ => ([0xF7], 6)
  | .idivRmv _ => ([0xF7], 7)
  | .clc => ([0xF8], 0)
  | .stc => ([0xF9], 0)
  | .cli => ([0xFA], 0)
  | .sti => ([0xFB], 0)
  | .cld => ([0xFC], 0)
  | .std => ([0xFD], 0)
  | .incRm8 _ => ([0xFE], 0)
  | .decRm8 _ => ([0xFE], 1)
  | .incRmv _ => ([0xFF], 0)
  | .decRmv _ => ([0xFF], 1)
  | .callRmv _ => ([0xFF], 2)
  | .callFarMem _ => ([0xFF], 3)
  | .jmpRmv _ => ([0xFF], 4)
  | .jmpFarMem _ => ([0xFF], 5)
  | .pushRmv _ => ([0xFF], 6)
  | .sldtRm16 _ => ([0x0F, 0x00], 0)
  | .strRm16 _ => ([0x0F, 0x00], 1)
  | .lldtRm16 _ => ([0x0F, 0x00], 2)
  | .ltrRm16 _ => ([0x0F, 0x00], 3)
  | .sgdtM _ => ([0x0F, 0x01], 0)
  | .sidtM _ => ([0x0F, 0x01], 1)
  | .lgdtM _ => ([0x0F, 0x01], 2)
  | .lidtM _ => ([0x0F, 0x01], 3)
  | .smswRm16 _ => ([0x0F, 0x01], 4)
  | .lmswRm16 _ => ([0x0F, 0x01], 6)
  | .clts => ([0x0F, 0x06], 0)
  | .movR32Cr _ _ _ => ([0x0F, 0x20], 0)
  | .movR32Dr _ _ _ => ([0x0F, 0x21], 0)
  | .movCrR32 _ _ _ => ([0x0F, 0x22], 0)
  | .movDrR32 _ _ _ => ([0x0F, 0x23], 0)
  | .jccRelz cc _ => ([0x0F, 0x80 ||| cc.bits.setWidth 8], 0)
  | .setccRm8 cc _ _ => ([0x0F, 0x90 ||| cc.bits.setWidth 8], 0)
  | .shldRmvRvIb _ _ _ => ([0x0F, 0xA4], 0)
  | .shldRmvRvCl _ _ => ([0x0F, 0xA5], 0)
  | .shrdRmvRvIb _ _ _ => ([0x0F, 0xAC], 0)
  | .shrdRmvRvCl _ _ => ([0x0F, 0xAD], 0)
  | .imulRvRmv _ _ => ([0x0F, 0xAF], 0)
  | .lssRvMem _ _ => ([0x0F, 0xB2], 0)
  | .lfsRvMem _ _ => ([0x0F, 0xB4], 0)
  | .lgsRvMem _ _ => ([0x0F, 0xB5], 0)
  | .movzxRvRm8 _ _ => ([0x0F, 0xB6], 0)
  | .movzxRvRm16 _ _ => ([0x0F, 0xB7], 0)
  | .movsxRvRm8 _ _ => ([0x0F, 0xBE], 0)
  | .movsxRvRm16 _ _ => ([0x0F, 0xBF], 0)

/-- The bytes of an instruction under a context, in memory order: prefixes, opcode, ModRM, SIB, displacement, immediate (30_encoding R160,
R182). -/
def Instr.encode (c : Ctx) (i : Instr) : List Byte :=
  c.pfx.map Pfx.byte ++ i.opcode.1 ++ i.form.tail.encode c i.opcode.2

end Sys2Proof
end

