-- ==== Sys2Proof/Config.lean ====
section
/-! DEFINITION. What an implementation fixes (the parameters of 00_scope R10 with their defaults) and the
free values of the model. A free value is an opaque constant: no proof can see what it is, so a statement
about it holds for every value it may have. -/

namespace Sys2Proof

/-- The parameter values after reset: every set empty and every Boolean false, as 00_scope R10 says;
MEM_SIZE is open there and is 2^32, its largest value, here (DESIGN CHOICE, unsafe, log 1). -/
def Config.defaultParams : Machine.Params :=
  { memSize := 4294967296
    portHandlers := []
    emulatedVectors := []
    multiplexHandlers := []
    callbackSlots := []
    gateDplCheckAllSources := false
    pagingSetsAD := false
    supervisorWriteProtect := false
    descriptorWriteback := false }

/-- The n-th free value: undefined(w) of 00_scope R15 and the value a mapped port returns
(42_string_io R318) are taken from it (log 4, log 6). -/
opaque Config.freeValue : Nat → Word

/-- The writes of the n-th call of a host handler, in order: an unconstrained update supplied by the
host (60_exceptions R524, log 7). -/
opaque Config.hostWrites : Nat → List Machine.HostWrite

end Sys2Proof
end

