-- ==== Sys2Proof/Machine/State.lean ====
section
/-! DEFINITION. The state of the core as plain data (10_state R30 to R60), the reasons a step can stop, and the
state after reset (R60). -/

namespace Sys2Proof.Machine

/-- The reasons of HostFatal, a closed list (00_scope R8), as the fatal latch holds them (10_state R56). invalidCatalog is
in the list for completeness: no rule can raise it once the catalog is fixed. -/
inductive Fatal where
  | unimplemented
  | doubleFault
  | invalidCatalog
  | physicalOutOfRange
  deriving DecidableEq, Repr

/-- The forms the spec refuses by name with HostFatal(Unimplemented) (00_scope R5, R8; 93_implementation_defined
section 2): an encoding outside the catalog; a far JMP or CALL to a gate or TSS; a task gate in the IDT; IRET with
NT = 1; IRET to virtual-8086 mode. -/
inductive Unimplemented where
  | encoding (why : Reject)
  | gateOrTssTarget
  | taskGate
  | taskReturn
  | virtual8086Return
  deriving DecidableEq, Repr

/-- The state of the machine. The last three fields are the model's own: draws counts the free values used so far
(00_scope R15, log 4), params holds the parameters of R10 (log 1), events the calls made to the host (log 6). -/
structure State where
  /-- General registers (10_state R31). -/
  regs : Regs
  /-- Instruction pointer (R35). -/
  eip : Word
  /-- Flags register (R38). -/
  eflags : Word
  /-- Segment registers with their hidden parts (R40). -/
  segs : Segments
  gdtr : TableReg
  idtr : TableReg
  ldtr : LdtReg
  tr : TaskReg
  cr0 : Word
  cr2 : Word
  cr3 : Word
  /-- Debug registers (R49). -/
  dr : DebugRegs
  /-- Dispatcher state (R51). -/
  activity : Activity
  /-- PendingIRQ, oldest first (R52). -/
  pendingIrq : List Byte
  /-- Single-step latch (R54). -/
  tfAtStart : Bool
  /-- Delivery depth (R55). -/
  depth : Nat
  /-- Fatal latch (R56). -/
  fatal : Option Fatal
  /-- Prefix state and ilen of the instruction being run (R35, R53; log 15). -/
  ctx : Ctx
  /-- Physical memory (20_memory R80): the bytes that are not zero, addresses strictly rising (log 3). -/
  mem : List Host.Cell
  draws : Nat
  params : Params
  events : List HostEvent
  deriving DecidableEq, Repr

/-- Why the machine stops with a fault, with the state the host then sees but for the latch: what was committed before the
step that failed, whose own writes are discarded (00_scope R8, R16). -/
inductive Fault where
  /-- Raised by deliverNested: a fault while a nested fault is delivered is HostFatal(DoubleFault)
  (60_exceptions R508). Safe: the run ends, nothing is claimed after it. -/
  | doubleFault (left : State)
  /-- Raised by physRead, physWrite and checkPresent: a physical address at or above MEM_SIZE is
  HostFatal(PhysicalOutOfRange) (20_memory R82). Safe: the run ends, nothing is claimed after it. -/
  | physicalOutOfRange (left : State)
  deriving DecidableEq, Repr

/-- Why a step is refused. -/
inductive Refusal where
  /-- Raised by an arm of exec whose instruction has no meaning yet. Safe: nothing is claimed of it. -/
  | notModelled (mnemonic : String)
  /-- Raised by the decoder and by the forms refused by name: HostFatal(Unimplemented), with the state left as for a fault
  (00_scope R8). Safe: the spec itself ends the run there. -/
  | unimplemented (why : Unimplemented) (left : State)
  /-- Raised by step when the fatal latch is set: no further step is taken (10_state R56). Safe: the spec says the
  core takes no step. -/
  | fatalLatch (reason : Fatal)
  deriving DecidableEq, Repr

/-- The access rights of every segment register after reset (10_state R60). -/
def resetRights : Rights :=
  { type := 3, s := true, dpl := 0, p := true, db := false, g := false }

/-- A segment register after reset (10_state R60). -/
def resetSegment : Segment :=
  { sel := 0, base := 0, limit := 0xFFFF, ar := resetRights, valid := true }

/-- The state after creation for given parameters, RESET_GPR and RESET_MEM (10_state R60, 70_reset_and_hazards
R540). -/
def State.resetWith (params : Params) (regs : Regs) (mem : List Host.Cell) : State :=
  { regs := regs
    eip := 0
    eflags := 2
    segs := ⟨resetSegment, resetSegment, resetSegment, resetSegment, resetSegment, resetSegment⟩
    gdtr := { base := 0, limit := 0xFFFF }
    idtr := { base := 0, limit := 0x03FF }
    ldtr := { sel := 0, base := 0, limit := 0, valid := false }
    tr := { sel := 0, base := 0, limit := 0, valid := false, is32 := false }
    cr0 := 0
    cr2 := 0
    cr3 := 0
    dr := ⟨0, 0, 0, 0, 0, 0⟩
    activity := .running
    pendingIrq := []
    tfAtStart := false
    depth := 0
    fatal := none
    ctx := Ctx.clear
    mem := mem
    draws := 0
    params := params
    events := [] }

/-- RESET_GPR of State.reset: every general register zero (DESIGN CHOICE, unsafe, log 2). -/
def resetRegs : Regs :=
  ⟨0, 0, 0, 0, 0, 0, 0, 0⟩

/-- The machine right after reset (10_state R60); the registers and memory the spec leaves unspecified are zero
(log 2, log 3). -/
def State.reset : State :=
  State.resetWith Config.defaultParams resetRegs []

end Sys2Proof.Machine
end

