-- ==== Sys2Proof/Machine/Regs.lean ====
section
/-! DEFINITION. Register access: the views of 10_state R32, the segment, control and debug registers by number, and
the derived predicates of 00_scope R17. -/

namespace Sys2Proof.Machine

/-- x[i] (10_state R31). -/
def Regs.get (g : Regs) : Reg → Word
  | .eax => g.eax
  | .ecx => g.ecx
  | .edx => g.edx
  | .ebx => g.ebx
  | .esp => g.esp
  | .ebp => g.ebp
  | .esi => g.esi
  | .edi => g.edi

/-- x[i] <- v (10_state R31). -/
def Regs.set (g : Regs) (r : Reg) (v : Word) : Regs :=
  match r with
  | .eax => { g with eax := v }
  | .ecx => { g with ecx := v }
  | .edx => { g with edx := v }
  | .ebx => { g with ebx := v }
  | .esp => { g with esp := v }
  | .ebp => { g with ebp := v }
  | .esi => { g with esi := v }
  | .edi => { g with edi := v }

/-- Seg[s] (10_state R40). -/
def Segments.get (g : Segments) : SReg → Segment
  | .es => g.es
  | .cs => g.cs
  | .ss => g.ss
  | .ds => g.ds
  | .fs => g.fs
  | .gs => g.gs

/-- Seg[s] <- v (10_state R40). -/
def Segments.set (g : Segments) (r : SReg) (v : Segment) : Segments :=
  match r with
  | .es => { g with es := v }
  | .cs => { g with cs := v }
  | .ss => { g with ss := v }
  | .ds => { g with ds := v }
  | .fs => { g with fs := v }
  | .gs => { g with gs := v }

/-- DRn (10_state R49). -/
def DebugRegs.get (g : DebugRegs) : DReg → Word
  | .dr0 => g.dr0
  | .dr1 => g.dr1
  | .dr2 => g.dr2
  | .dr3 => g.dr3
  | .dr6 => g.dr6
  | .dr7 => g.dr7

/-- DRn <- v (10_state R49). -/
def DebugRegs.set (g : DebugRegs) (r : DReg) (v : Word) : DebugRegs :=
  match r with
  | .dr0 => { g with dr0 := v }
  | .dr1 => { g with dr1 := v }
  | .dr2 => { g with dr2 := v }
  | .dr3 => { g with dr3 := v }
  | .dr6 => { g with dr6 := v }
  | .dr7 => { g with dr7 := v }

/-- The register that holds the 8-bit view of an index, and whether it is the high byte (10_state R32: AL CL DL BL, then
AH CH DH BH). -/
def byteHome : Reg → Reg × Bool
  | .eax => (.eax, false)
  | .ecx => (.ecx, false)
  | .edx => (.edx, false)
  | .ebx => (.ebx, false)
  | .esp => (.eax, true)
  | .ebp => (.ecx, true)
  | .esi => (.edx, true)
  | .edi => (.ebx, true)

/-- x[i]. -/
def State.reg (s : State) (r : Reg) : Word :=
  s.regs.get r

/-- x[i] <- v. -/
def State.setReg (s : State) (r : Reg) (v : Word) : State :=
  { s with regs := s.regs.set r v }

/-- Replace bits 15 to 0 of a word. -/
def putLow16 (old : Word) (v : Half) : Word :=
  old.extractLsb' 16 16 ++ v

/-- Replace bits 7 to 0, or bits 15 to 8, of a word. -/
def putByte (old : Word) (high : Bool) (v : Byte) : Word :=
  if high then old.extractLsb' 16 16 ++ v ++ old.extractLsb' 0 8
  else old.extractLsb' 8 24 ++ v

/-- R(w, i) (10_state R32). -/
def State.view (s : State) (w : Size) (r : Reg) : BitVec w.bits :=
  match w with
  | .b8 => (s.reg (byteHome r).1).extractLsb' (if (byteHome r).2 then 8 else 0) 8
  | .b16 => (s.reg r).extractLsb' 0 16
  | .b32 => s.reg r

/-- R(w, i) <- v (10_state R32): the other bits keep their values. -/
def State.setView (s : State) (w : Size) (r : Reg) (v : BitVec w.bits) : State :=
  match w, v with
  | .b8, v => s.setReg (byteHome r).1 (putByte (s.reg (byteHome r).1) (byteHome r).2 v)
  | .b16, v => s.setReg r (putLow16 (s.reg r) v)
  | .b32, v => s.setReg r v

/-- Seg[s]. -/
def State.seg (s : State) (r : SReg) : Segment :=
  s.segs.get r

/-- Seg[s] <- v. -/
def State.setSeg (s : State) (r : SReg) (v : Segment) : State :=
  { s with segs := s.segs.set r v }

/-- CRn (10_state R45 to R48). -/
def State.creg (s : State) : CReg → Word
  | .cr0 => s.cr0
  | .cr2 => s.cr2
  | .cr3 => s.cr3

/-- CRn <- v (44_protected_mode R370). -/
def State.setCreg (s : State) (k : CReg) (v : Word) : State :=
  match k with
  | .cr0 => { s with cr0 := v }
  | .cr2 => { s with cr2 := v }
  | .cr3 => { s with cr3 := v }

/-- PE = CR0[0] (00_scope R17). -/
def State.pe (s : State) : Bool :=
  s.cr0.getLsbD 0

/-- Paging = PE and PG (00_scope R17). -/
def State.paging (s : State) : Bool :=
  s.cr0.getLsbD 0 && s.cr0.getLsbD 31

/-- CPL = Seg[CS].sel[1:0] (10_state R50). -/
def State.cpl (s : State) : BitVec 2 :=
  s.segs.cs.sel.extractLsb' 0 2

/-- IOPL = EFLAGS[13:12] (00_scope R17). -/
def State.iopl (s : State) : BitVec 2 :=
  s.eflags.extractLsb' 12 2

/-- Priv0 = (PE = 0) or (CPL = 0) (00_scope R17). -/
def State.priv0 (s : State) : Bool :=
  !s.pe || s.cpl == 0

/-- IOPriv = (PE = 0) or (CPL <= IOPL) (00_scope R17). -/
def State.ioPriv (s : State) : Bool :=
  !s.pe || decide (s.cpl ≤ s.iopl)

/-- User = (CPL = 3) (00_scope R17). -/
def State.user (s : State) : Bool :=
  s.cpl == 3

/-- The stack address size: 32 iff Seg[SS].ar.DB = 1 (43_stack R330). -/
def State.ssz (s : State) : Size :=
  if s.segs.ss.ar.db then .b32 else .b16

/-- next_eip = trunc_32(EIP + ilen) (10_state R36, 00_scope R14). -/
def State.nextEip (s : State) : Word :=
  s.eip + BitVec.ofNat 32 s.ctx.ilen

end Sys2Proof.Machine
end

