-- ==== Sys2Proof/Machine/Flags.lean ====
section
/-! DEFINITION. The flags of 10_state R38 and every flag computation of the instruction rules: 40_arithmetic R230 to
R246, 41_logic_shift R260 to R275, 43_stack R346 and the conditions of 30_encoding R203. A flag that a rule leaves
undefined takes its own bit of a free value u (00_scope R15, log 4). -/

namespace Sys2Proof.Machine

/-- The flags with a function (10_state R38); IOPL is a field of two bits. -/
inductive Flag where
  | cf
  | pf
  | af
  | zf
  | sf
  | tf
  | intf
  | df
  | of
  | nt
  deriving DecidableEq, Repr

/-- Bit position of a flag (10_state R38). -/
def Flag.pos : Flag → Nat
  | .cf => 0
  | .pf => 2
  | .af => 4
  | .zf => 6
  | .sf => 7
  | .tf => 8
  | .intf => 9
  | .df => 10
  | .of => 11
  | .nt => 14

/-- A flag of an image. -/
def getFlag (f : Flag) (fl : Word) : Bool :=
  fl.getLsbD f.pos

/-- The image with one flag set to a value. -/
def setFlag (f : Flag) (b : Bool) (fl : Word) : Word :=
  if b then fl ||| BitVec.ofNat 32 (2 ^ f.pos) else fl &&& ~~~(BitVec.ofNat 32 (2 ^ f.pos))

/-- EFLAGS.f. -/
def State.flag (s : State) (f : Flag) : Bool :=
  getFlag f s.eflags

/-- The flag as a number 0 or 1. -/
def bit (b : Bool) : Nat :=
  if b then 1 else 0

/-- FLAGS_WMASK (10_state R39). -/
def flagsWmask : Word := 0x00007FD5

/-- Store a flags image under a mask: (old and not mask) or (new and mask) or 2 (43_stack R346). -/
def maskedFlags (mask old new : Word) : Word :=
  (old &&& ~~~mask) ||| (new &&& mask) ||| 0x00000002

/-- EFLAGS after SAHF: (AH and 0xD5) or 2 in its low byte, the rest as it was (45_data_movement R411). -/
def sahfFlags (old : Word) (ah : Byte) : Word :=
  (old &&& 0xFFFFFF00) ||| (ah.setWidth 32 &&& 0xD5) ||| 0x00000002

/-- The mask of POPF and IRET: IOPL only with Priv0, IF only with IOPriv (43_stack R346). -/
def popMask (priv0 ioPriv : Bool) : Word :=
  flagsWmask &&& (if priv0 then 0xFFFFFFFF else ~~~0x3000) &&& (if ioPriv then 0xFFFFFFFF else ~~~0x0200)

/-- Number of 1 bits among the first n. -/
def countOnes {w : Nat} (v : BitVec w) : Nat → Nat
  | 0 => 0
  | n + 1 => bit (v.getLsbD n) + countOnes v n

/-- PF: the low eight bits hold an even number of 1 bits (40_arithmetic R230). -/
def evenParity {w : Nat} (r : BitVec w) : Bool :=
  countOnes r 8 % 2 == 0

/-- ZSP(w, r) (40_arithmetic R230). -/
def zsp {w : Nat} (r : BitVec w) (fl : Word) : Word :=
  setFlag .zf (r == 0) (setFlag .sf r.msb (setFlag .pf (evenParity r) fl))

/-- The low four bits as a number. -/
def nibble {w : Nat} (v : BitVec w) : Nat :=
  v.toNat % 16

/-- The result of AddFlags(w, a, b, c) (40_arithmetic R231). -/
def addResult {w : Nat} (a b : BitVec w) (c : Bool) : BitVec w :=
  BitVec.ofNat w (a.toNat + b.toNat + bit c)

/-- The flags of AddFlags(w, a, b, c) (40_arithmetic R231). -/
def addFlags {w : Nat} (a b : BitVec w) (c : Bool) (fl : Word) : Word :=
  let r := addResult a b c
  setFlag .cf (decide (2 ^ w ≤ a.toNat + b.toNat + bit c))
    (setFlag .of (a.msb == b.msb && r.msb != a.msb)
      (setFlag .af (decide (15 < nibble a + nibble b + bit c)) (zsp r fl)))

/-- The result of SubFlags(w, a, b, c) (40_arithmetic R232). -/
def subResult {w : Nat} (a b : BitVec w) (c : Bool) : BitVec w :=
  a - b - BitVec.ofNat w (bit c)

/-- The flags of SubFlags(w, a, b, c) (40_arithmetic R232). -/
def subFlags {w : Nat} (a b : BitVec w) (c : Bool) (fl : Word) : Word :=
  let r := subResult a b c
  setFlag .cf (decide (a.toNat < b.toNat + bit c))
    (setFlag .of (a.msb != b.msb && r.msb != a.msb)
      (setFlag .af (decide (nibble a < nibble b + bit c)) (zsp r fl)))

/-- The flags of INC from the old value (40_arithmetic R239); CF keeps its value. -/
def incFlags {w : Nat} (a : BitVec w) (fl : Word) : Word :=
  setFlag .of (a.toNat == 2 ^ (w - 1) - 1) (setFlag .af (nibble a == 15) (zsp (a + 1) fl))

/-- The flags of DEC from the old value (40_arithmetic R240); CF keeps its value. -/
def decFlags {w : Nat} (a : BitVec w) (fl : Word) : Word :=
  setFlag .of (a.toNat == 2 ^ (w - 1)) (setFlag .af (nibble a == 0) (zsp (a - 1) fl))

/-- LogicFlags(w, r) (41_logic_shift R260): AF is undefined. -/
def logicFlags {w : Nat} (u : Word) (r : BitVec w) (fl : Word) : Word :=
  setFlag .cf false (setFlag .of false (setFlag .af (getFlag .af u) (zsp r fl)))

/-- The flags of MUL and IMUL: CF = OF = big, the other four status flags undefined (40_arithmetic R242 to R244). -/
def mulFlags (u : Word) (big : Bool) (fl : Word) : Word :=
  setFlag .cf big (setFlag .of big
    (setFlag .sf (getFlag .sf u) (setFlag .zf (getFlag .zf u)
      (setFlag .af (getFlag .af u) (setFlag .pf (getFlag .pf u) fl)))))

/-- All six status flags undefined (40_arithmetic R245, R246; 44_protected_mode R370). -/
def undefinedFlags (u : Word) (fl : Word) : Word :=
  setFlag .cf (getFlag .cf u) (setFlag .of (getFlag .of u)
    (setFlag .sf (getFlag .sf u) (setFlag .zf (getFlag .zf u)
      (setFlag .af (getFlag .af u) (setFlag .pf (getFlag .pf u) fl)))))

/-- Cond(cc) on a flags image (30_encoding R203). -/
def condHolds (c : Cond) (fl : Word) : Bool :=
  match c with
  | .o => getFlag .of fl
  | .no => !getFlag .of fl
  | .b => getFlag .cf fl
  | .nb => !getFlag .cf fl
  | .z => getFlag .zf fl
  | .nz => !getFlag .zf fl
  | .be => getFlag .cf fl || getFlag .zf fl
  | .nbe => !getFlag .cf fl && !getFlag .zf fl
  | .s => getFlag .sf fl
  | .ns => !getFlag .sf fl
  | .p => getFlag .pf fl
  | .np => !getFlag .pf fl
  | .l => getFlag .sf fl != getFlag .of fl
  | .nl => getFlag .sf fl == getFlag .of fl
  | .le => getFlag .zf fl || (getFlag .sf fl != getFlag .of fl)
  | .nle => !getFlag .zf fl && (getFlag .sf fl == getFlag .of fl)

/-- The seven shift and rotate instructions (41_logic_shift R267 to R273). -/
inductive ShiftOp where
  | rol
  | ror
  | rcl
  | rcr
  | shl
  | shr
  | sar
  deriving DecidableEq, Repr

/-- CF ++ a, a value of w + 1 bits (41_logic_shift R269). -/
def withCarry {w : Nat} (cf : Bool) (a : BitVec w) : BitVec (w + 1) :=
  (BitVec.ofBool cf ++ a).setWidth (w + 1)

/-- t' of RCL and RCR: t rotated by n within w + 1 bits (41_logic_shift R269, R270). -/
def carryRotated {w : Nat} (left : Bool) (cf : Bool) (a : BitVec w) (c : Nat) : BitVec (w + 1) :=
  if left then (withCarry cf a).rotateLeft (c % (w + 1)) else (withCarry cf a).rotateRight (c % (w + 1))

/-- The result of a shift or rotate by an effective count c, not 0 (41_logic_shift R267 to R273). -/
def shiftResult {w : Nat} (op : ShiftOp) (a : BitVec w) (c : Nat) (cf : Bool) : BitVec w :=
  match op with
  | .rol => (a <<< (c % w)) ||| (a >>> (w - c % w))
  | .ror => (a >>> (c % w)) ||| (a <<< (w - c % w))
  | .rcl => (carryRotated true cf a c).setWidth w
  | .rcr => (carryRotated false cf a c).setWidth w
  | .shl => a <<< c
  | .shr => a >>> c
  | .sar => a.sshiftRight (min c (w - 1))

/-- CF after a shift or rotate (41_logic_shift R267 to R273); undefined for SHL and SHR with c >= w. -/
def shiftCarry {w : Nat} (op : ShiftOp) (u : Word) (a : BitVec w) (c : Nat) (cf : Bool) : Bool :=
  match op with
  | .rol => (shiftResult .rol a c cf).getLsbD 0
  | .ror => (shiftResult .ror a c cf).getLsbD (w - 1)
  | .rcl => (carryRotated true cf a c).getLsbD w
  | .rcr => (carryRotated false cf a c).getLsbD w
  | .shl => if c < w then a.getLsbD (w - c) else getFlag .cf u
  | .shr => if c < w then a.getLsbD (c - 1) else getFlag .cf u
  | .sar => a.getLsbD (min c w - 1)

/-- OF after a shift or rotate by one (41_logic_shift R267 to R273). -/
def shiftOverflowOne {w : Nat} (op : ShiftOp) (a r : BitVec w) (newCf : Bool) : Bool :=
  match op with
  | .rol => r.getLsbD (w - 1) != r.getLsbD 0
  | .ror => r.getLsbD (w - 1) != r.getLsbD (w - 2)
  | .rcl => r.getLsbD (w - 1) != newCf
  | .rcr => r.getLsbD (w - 1) != r.getLsbD (w - 2)
  | .shl => r.getLsbD (w - 1) != newCf
  | .shr => a.getLsbD (w - 1)
  | .sar => false

/-- The flags ZSP and AF, written by the shifts only (41_logic_shift R267 to R273): rotates leave SF ZF AF PF. -/
def shiftOtherFlags {w : Nat} (op : ShiftOp) (u : Word) (r : BitVec w) (fl : Word) : Word :=
  match op with
  | .rol => fl
  | .ror => fl
  | .rcl => fl
  | .rcr => fl
  | .shl => zsp r (setFlag .af (getFlag .af u) fl)
  | .shr => zsp r (setFlag .af (getFlag .af u) fl)
  | .sar => zsp r (setFlag .af (getFlag .af u) fl)

/-- The flags after a shift or rotate by an effective count c, not 0: OF is undefined unless c = 1. -/
def shiftFlags {w : Nat} (op : ShiftOp) (u : Word) (a : BitVec w) (c : Nat) (fl : Word) : Word :=
  let cf := getFlag .cf fl
  let r := shiftResult op a c cf
  let newCf := shiftCarry op u a c cf
  let newOf := if c = 1 then shiftOverflowOne op a r newCf else getFlag .of u
  setFlag .cf newCf (setFlag .of newOf (shiftOtherFlags op u r fl))

/-- The result of SHLD (left) or SHRD for 0 < c <= w (41_logic_shift R274, R275); b is the register operand. -/
def doubleShiftResult {w : Nat} (left : Bool) (a b : BitVec w) (c : Nat) : BitVec w :=
  if left then ((a ++ b) <<< c).extractLsb' w w else ((b ++ a) >>> c).extractLsb' 0 w

/-- The flags of SHLD or SHRD for 0 < c <= w (41_logic_shift R274, R275). -/
def doubleShiftFlags {w : Nat} (left : Bool) (u : Word) (a b : BitVec w) (c : Nat) (fl : Word) : Word :=
  let r := doubleShiftResult left a b c
  let newCf := if left then a.getLsbD (w - c) else a.getLsbD (c - 1)
  let newOf := if c = 1 then r.msb != a.msb else getFlag .of u
  setFlag .cf newCf (setFlag .of newOf (zsp r (setFlag .af (getFlag .af u) fl)))

end Sys2Proof.Machine
end

