-- ==== Sys2Proof/Machine/Memory.lean ====
section
/-! DEFINITION. Physical memory as a list of cells in one canonical form (20_memory R80, R81, R83): addresses strictly
rising and no byte that equals what an unlisted address reads as. -/

namespace Sys2Proof.Machine

/-- What an address that is not listed reads as: zero (RESET_MEM; DESIGN CHOICE, unsafe, log 3). -/
def Memory.unlisted : Byte := 0

/-- The byte at an address (20_memory R80). -/
def Memory.read : List Host.Cell → Nat → Byte
  | [], _ => Memory.unlisted
  | c :: cs, a => if c.1 = a then c.2 else Memory.read cs a

/-- Store one byte (20_memory R83); storing what an unlisted address reads as removes the cell. -/
def Memory.write : List Host.Cell → Nat → Byte → List Host.Cell
  | [], a, v => if v = Memory.unlisted then [] else [(a, v)]
  | c :: cs, a, v =>
    if a < c.1 then (if v = Memory.unlisted then c :: cs else (a, v) :: c :: cs)
    else if a = c.1 then (if v = Memory.unlisted then cs else (a, v) :: cs)
    else c :: Memory.write cs a v

/-- Every listed address is at least the bound, addresses rise strictly and no cell is redundant. -/
def Memory.wfFrom : Nat → List Host.Cell → Bool
  | _, [] => true
  | lo, c :: cs => decide (lo ≤ c.1) && c.2 != Memory.unlisted && Memory.wfFrom (c.1 + 1) cs

/-- The canonical form. -/
def Memory.wf (m : List Host.Cell) : Bool :=
  Memory.wfFrom 0 m

/-- A little-endian byte sequence as a number (20_memory R81, R84). -/
def leNat : List Byte → Nat
  | [] => 0
  | b :: bs => b.toNat + 256 * leNat bs

/-- The n low bytes of a number, least significant first (20_memory R83, R84). -/
def leBytes : Nat → Nat → List Byte
  | 0, _ => []
  | n + 1, v => BitVec.ofNat 8 v :: leBytes n (v / 256)

end Sys2Proof.Machine
end

