-- ==== Sys2Proof/Machine/Exec.lean ====
section
/-! DEFINITION. The working copy of a step: a computation that carries the state and may stop. A computation that stops
carries no state, so its writes are discarded (00_scope R16); the write to CR2 that survives travels in the
exception. -/

namespace Sys2Proof.Machine

/-- The outcome of a step (00_scope R6). -/
abbrev Step := Host.Outcome State Fault Refusal

/-- A raised exception (00_scope R14): vector, error code if any, and the value of CR2 if it is a page fault. -/
structure Raised where
  vec : Byte
  err : Option Half
  cr2 : Option Word
  deriving DecidableEq, Repr

/-- The HostFatal reasons an operation can end with (00_scope R8). -/
inductive Abort where
  | unimplemented (why : Unimplemented)
  | physicalOutOfRange
  deriving DecidableEq, Repr

/-- How a computation stops (00_scope R14). -/
inductive Stop where
  | raise (r : Raised)
  | fatal (a : Abort)
  deriving DecidableEq, Repr

/-- A computation on a working copy of the state (00_scope R16). -/
abbrev Exec := StateT State (Except Stop)

/-- HostFatal ends the step and the run, with the state before the step left (00_scope R8, R14, R16; log 9). -/
def abortOutcome (a : Abort) (left : State) : Step :=
  match a with
  | .unimplemented why => .refused (.unimplemented why left)
  | .physicalOutOfRange => .fault (.physicalOutOfRange left)

/-- raise with no error code. -/
def raiseNone (vec : Byte) : Stop :=
  .raise ⟨vec, none, none⟩

/-- raise with an error code. -/
def raiseErr (vec : Byte) (e : Half) : Stop :=
  .raise ⟨vec, some e, none⟩

/-- Divide error (60_exceptions R480). -/
def divideError : Stop := raiseNone 0

/-- #TS(e) (60_exceptions R480). -/
def taskFault (e : Half) : Stop := raiseErr 10 e

/-- #NP(e) (60_exceptions R480). -/
def notPresent (e : Half) : Stop := raiseErr 11 e

/-- #SS(e) (60_exceptions R480). -/
def stackFault (e : Half) : Stop := raiseErr 12 e

/-- #GP(e) (60_exceptions R480). -/
def protection (e : Half) : Stop := raiseErr 13 e

/-- HostFatal(Unimplemented) (00_scope R8). -/
def refuse (why : Unimplemented) : Stop :=
  .fatal (.unimplemented why)

/-- Go on if the condition holds, else stop. -/
def check (b : Bool) (e : Stop) : Exec Unit :=
  if b then pure () else throw e

/-- undefined(32): the next free value (00_scope R15, log 4). -/
def draw : Exec Word := do
  let s ← get
  set { s with draws := s.draws + 1 }
  pure (Config.freeValue s.draws)

/-- Write EFLAGS. -/
def modifyFlags (f : Word → Word) : Exec Unit :=
  modify fun s => { s with eflags := f s.eflags }

/-- EIP <- v. -/
def setEip (v : Word) : Exec Unit :=
  modify fun s => { s with eip := v }

/-- EIP <- next_eip (10_state R36). -/
def advance : Exec Unit :=
  modify fun s => { s with eip := s.nextEip }

end Sys2Proof.Machine
end

