-- ==== Sys2Proof/Machine/Ops.lean ====
section
/-! DEFINITION. The shared operations: physical and linear memory, segments and descriptors (20_memory), the stack
(43_stack R330, R331), far transfers (46_control_transfer section 2), taking an exception and returning from one
(60_exceptions R501 to R508, 46_control_transfer R470), ports and host calls (42_string_io R318, 60_exceptions R524). -/

namespace Sys2Proof.Machine

/-! ### Physical memory (20_memory R80 to R83) -/

/-- MemRead of one byte; at or above MEM_SIZE it is HostFatal(PhysicalOutOfRange) (20_memory R81, R82). -/
def physRead (a : Word) : Exec Byte := do
  let s ← get
  check (decide (a.toNat < s.params.memSize)) (.fatal .physicalOutOfRange)
  pure (Memory.read s.mem a.toNat)

/-- MemWrite of one byte (20_memory R82, R83). -/
def physWrite (a : Word) (v : Byte) : Exec Unit := do
  let s ← get
  check (decide (a.toNat < s.params.memSize)) (.fatal .physicalOutOfRange)
  set { s with mem := Memory.write s.mem a.toNat v }

/-- The n byte addresses from a, each trunc_32(a + i) (20_memory R81, R135). -/
def addrs (a : Word) : Nat → List Word
  | 0 => []
  | n + 1 => a :: addrs (a + 1) n

/-- Read bytes in order. -/
def physReads : List Word → Exec (List Byte)
  | [] => pure []
  | a :: as => do
    let b ← physRead a
    let bs ← physReads as
    pure (b :: bs)

/-- Write bytes in order. -/
def physWrites : List Word → List Byte → Exec Unit
  | a :: as, b :: bs => do
    physWrite a b
    physWrites as bs
  | _, _ => pure ()

/-- MemRead(addr, n) as a number (20_memory R81). -/
def memRead (a : Word) (n : Nat) : Exec Nat := do
  let bs ← physReads (addrs a n)
  pure (leNat bs)

/-- MemWrite(addr, n, v) (20_memory R83). -/
def memWrite (a : Word) (n v : Nat) : Exec Unit :=
  physWrites (addrs a n) (leBytes n v)

/-! ### Linear memory: paging (20_memory R130 to R137) -/

/-- The kind of an access (20_memory R130). -/
inductive Access where
  | read
  | write
  | fetch
  deriving DecidableEq, Repr

/-- The error code of a page fault (20_memory R132): bit 0 present, bit 1 write, bit 2 user. -/
def pageFaultCode (present : Bool) (acc : Access) (user : Bool) : Half :=
  BitVec.ofNat 16 (bit present + 2 * bit (acc == .write) + 4 * bit user)

/-- PageFault(lin, acc, user, p) (20_memory R132): #PF, and CR2 becomes the linear address. -/
def pageFault (lin : Word) (acc : Access) (user present : Bool) : Stop :=
  .raise ⟨14, some (pageFaultCode present acc user), some lin⟩

/-- Permitted(pde, pte, acc, user) (20_memory R133); wp is SUPERVISOR_WRITE_PROTECT. -/
def permitted (wp : Bool) (pde pte : Word) (acc : Access) (user : Bool) : Bool :=
  let writable := pde.getLsbD 1 && pte.getLsbD 1
  if user then pde.getLsbD 2 && pte.getLsbD 2 && (acc != .write || writable)
  else !wp || acc != .write || writable

/-- Write a page-table entry back, unless its bits are set already (20_memory R134). -/
def setEntry (done : Bool) (entry v : Word) : Exec Unit :=
  if done then pure () else memWrite entry 4 v.toNat

/-- Accessed and dirty bits (20_memory R134), only with PAGING_SETS_AD. -/
def markAccessed (pdeAt pde pteAt pte : Word) (acc : Access) : Exec Unit := do
  let s ← get
  if s.params.pagingSetsAD then
    setEntry (pde.getLsbD 5) pdeAt (pde ||| 0x20)
    setEntry (pte.getLsbD 5 && (acc != .write || pte.getLsbD 6)) pteAt
      (pte ||| 0x20 ||| (if acc = .write then 0x40 else 0))
  else pure ()

/-- Translate(lin, acc, user) (20_memory R130). -/
def translate (acc : Access) (user : Bool) (lin : Word) : Exec Word := do
  let s ← get
  if s.paging then
    let pdeAt := (s.cr3 &&& 0xFFFFF000#32) + (lin >>> 22) * 4
    let pdeNum ← memRead pdeAt 4
    let pde := BitVec.ofNat 32 pdeNum
    check (pde.getLsbD 0) (pageFault lin acc user false)
    let pteAt := (pde &&& 0xFFFFF000#32) + ((lin >>> 12) &&& 0x3FF) * 4
    let pteNum ← memRead pteAt 4
    let pte := BitVec.ofNat 32 pteNum
    check (pte.getLsbD 0) (pageFault lin acc user false)
    check (permitted s.params.supervisorWriteProtect pde pte acc user) (pageFault lin acc user true)
    markAccessed pdeAt pde pteAt pte acc
    pure ((pte &&& 0xFFFFF000) ||| (lin &&& 0xFFF))
  else pure lin

/-- Translate linear addresses in ascending order (20_memory R135). -/
def translates (acc : Access) (user : Bool) : List Word → Exec (List Word)
  | [] => pure []
  | a :: as => do
    let p ← translate acc user a
    let ps ← translates acc user as
    pure (p :: ps)

/-- LinRead(lin, n, user) (20_memory R135): every byte is translated, then read (log 18). -/
def linRead (acc : Access) (user : Bool) (lin : Word) (n : Nat) : Exec Nat := do
  let ps ← translates acc user (addrs lin n)
  let bs ← physReads ps
  pure (leNat bs)

/-- LinWrite(lin, n, v, user) (20_memory R135). -/
def linWrite (user : Bool) (lin : Word) (n v : Nat) : Exec Unit := do
  let ps ← translates .write user (addrs lin n)
  physWrites ps (leBytes n v)

/-- SysRead(lin, n) (20_memory R136). -/
def sysRead (lin : Word) (n : Nat) : Exec Nat :=
  linRead .read false lin n

/-- SysWrite(lin, n, v) (20_memory R136). -/
def sysWrite (lin : Word) (n v : Nat) : Exec Unit :=
  linWrite false lin n v

/-! ### Logical memory: segments (20_memory R100 to R103) -/

/-- An executable segment: type[3]. -/
def Rights.code (r : Rights) : Bool :=
  r.type.getLsbD 3

/-- type[2]: conforming for code, expand-down for data. -/
def Rights.conforming (r : Rights) : Bool :=
  r.type.getLsbD 2

/-- type[1]: readable for code, writable for data. -/
def Rights.readWrite (r : Rights) : Bool :=
  r.type.getLsbD 1

/-- An expand-down data segment (20_memory R102). -/
def Rights.expandDown (r : Rights) : Bool :=
  r.s && !r.code && r.conforming

/-- Writable data (20_memory R103). -/
def Rights.writable (r : Rights) : Bool :=
  !r.code && r.readWrite

/-- The limit check (20_memory R102): the last byte is computed without wrap. -/
def Segment.inBounds (g : Segment) (off : Word) (n : Nat) : Bool :=
  let last := off.toNat + n - 1
  if g.ar.expandDown then
    decide (g.limit.toNat < off.toNat) && decide (last ≤ (if g.ar.db then 0xFFFFFFFF else 0xFFFF))
  else decide (last ≤ g.limit.toNat)

/-- #SS(0) through SS, #GP(0) otherwise (20_memory R102, R103). -/
def segmentFault (r : SReg) : Stop :=
  if r = .ss then stackFault 0 else protection 0

/-- The rights check in protected mode (20_memory R103); an instruction fetch has none (log 22). -/
def checkRights (r : SReg) (g : Segment) (acc : Access) : Exec Unit :=
  match acc with
  | .fetch => pure ()
  | .write => check (g.valid && g.ar.writable) (segmentFault r)
  | .read => do
    check g.valid (segmentFault r)
    check (!g.ar.code || g.ar.readWrite) (protection 0)

/-- CheckSegment(s, off, n, acc) (20_memory R102, R103). -/
def checkSegment (r : SReg) (off : Word) (n : Nat) (acc : Access) : Exec Unit := do
  let s ← get
  check ((s.seg r).inBounds off n) (segmentFault r)
  if s.pe then checkRights r (s.seg r) acc else pure ()

/-- SegRead(s, off, n) (20_memory R100). -/
def segRead (r : SReg) (off : Word) (n : Nat) : Exec Nat := do
  checkSegment r off n .read
  let s ← get
  linRead .read s.user ((s.seg r).base + off) n

/-- SegWrite(s, off, n, v) (20_memory R100). -/
def segWrite (r : SReg) (off : Word) (n v : Nat) : Exec Unit := do
  checkSegment r off n .write
  let s ← get
  linWrite s.user ((s.seg r).base + off) n v

/-- Every address lies in physical memory, else HostFatal(PhysicalOutOfRange) (20_memory R82). -/
def checkPresent : List Word → Exec Unit
  | [] => pure ()
  | a :: as => do
    let s ← get
    check (decide (a.toNat < s.params.memSize)) (.fatal .physicalOutOfRange)
    checkPresent as

/-- All checks of a SegWrite, without the write (42_string_io R307, log 24). -/
def checkSegWrite (r : SReg) (off : Word) (n : Nat) : Exec Unit := do
  checkSegment r off n .write
  let s ← get
  let ps ← translates .write s.user (addrs ((s.seg r).base + off) n)
  checkPresent ps

/-! ### Instruction fetch (30_encoding R161) -/

/-- One instruction byte at an offset in CS (30_encoding R161). -/
def fetchByte (off : Word) : Exec Byte := do
  checkSegment .cs off 1 .fetch
  let s ← get
  let v ← linRead .fetch s.user (s.segs.cs.base + off) 1
  pure (BitVec.ofNat 8 v)

/-- The physical address of an instruction byte, computed as a fetch would and not read (60_exceptions R526). -/
def fetchAddress (off : Word) : Exec Word := do
  checkSegment .cs off 1 .fetch
  let s ← get
  translate .fetch s.user (s.segs.cs.base + off)

/-- Fetch n bytes for their effect on accessed bits. -/
def fetchBytes : Nat → Word → Exec Unit
  | 0, _ => pure ()
  | n + 1, off => do
    let _ ← fetchByte off
    fetchBytes n (off + 1)

/-- The writes of the instruction's own fetch: with PAGING_SETS_AD its translations set accessed bits, as part of the
step that a fault discards (20_memory R134, 00_scope R16; log 17). -/
def touchFetch : Exec Unit := do
  let s ← get
  if s.params.pagingSetsAD then fetchBytes s.ctx.ilen s.eip else pure ()

/-! ### Descriptors (20_memory R105 to R115) -/

/-- An 8-byte descriptor, byte d[0] least significant (20_memory R110). -/
abbrev Desc := BitVec 64

/-- The access byte d[5]. -/
def Desc.access (d : Desc) : Byte :=
  d.extractLsb' 40 8

/-- d[5][3:0]. -/
def Desc.type (d : Desc) : BitVec 4 :=
  d.extractLsb' 40 4

/-- S = d[5][4]: code or data, not system. -/
def Desc.s (d : Desc) : Bool :=
  d.getLsbD 44

/-- DPL = d[5][6:5]. -/
def Desc.dpl (d : Desc) : BitVec 2 :=
  d.extractLsb' 45 2

/-- P = d[5][7]. -/
def Desc.present (d : Desc) : Bool :=
  d.getLsbD 47

/-- The base field (20_memory R110). -/
def Desc.base (d : Desc) : Word :=
  d.extractLsb' 56 8 ++ d.extractLsb' 16 24

/-- limit20 (20_memory R112). -/
def Desc.limit20 (d : Desc) : BitVec 20 :=
  d.extractLsb' 48 4 ++ d.extractLsb' 0 16

/-- bytelimit (20_memory R112). -/
def Desc.byteLimit (d : Desc) : Word :=
  if d.getLsbD 55 then (d.limit20.setWidth 32 <<< 12) ||| 0xFFF else d.limit20.setWidth 32

/-- The rights of DecodeSegment(d) (20_memory R110). -/
def Desc.rights (d : Desc) : Rights :=
  { type := d.type, s := d.s, dpl := d.dpl, p := d.present, db := d.getLsbD 54, g := d.getLsbD 55 }

/-- The segment register contents that a selector and its descriptor give (20_memory R106, R110). -/
def Desc.segment (d : Desc) (sel : Half) : Segment :=
  { sel := sel, base := d.base, limit := d.byteLimit, ar := d.rights, valid := true }

/-- Target selector of a gate (20_memory R113). -/
def Desc.gateSelector (d : Desc) : Half :=
  d.extractLsb' 16 16

/-- Target offset of a gate; a 16-bit gate has 16 bits (20_memory R113). -/
def Desc.gateOffset (d : Desc) (is32 : Bool) : Word :=
  if is32 then d.extractLsb' 48 16 ++ d.extractLsb' 0 16 else (d.extractLsb' 0 16).setWidth 32

/-- RPL of a selector (10_state R41). -/
def rpl (sel : Half) : BitVec 2 :=
  sel.extractLsb' 0 2

/-- A null selector: sel[15:2] = 0 (10_state R41). -/
def isNull (sel : Half) : Bool :=
  sel.extractLsb' 2 14 == 0

/-- An error code in selector format (60_exceptions R483). -/
def selError (sel : Half) (ext : Bool) : Half :=
  (sel &&& 0xFFFC) ||| BitVec.ofNat 16 (bit ext)

/-- The selector with its RPL replaced by a level. -/
def withRpl (sel : Half) (lvl : BitVec 2) : Half :=
  (sel &&& 0xFFFC) ||| lvl.setWidth 16

/-- Byte offset of a selector's descriptor in its table (20_memory R105). -/
def tableOffset (sel : Half) : Nat :=
  sel.toNat / 8 * 8

/-- Base of the table a selector names (20_memory R105). -/
def State.tableBase (s : State) (sel : Half) : Word :=
  if sel.getLsbD 2 then s.ldtr.base else s.gdtr.base

/-- Limit of the table a selector names (20_memory R105). -/
def State.tableLimit (s : State) (sel : Half) : Nat :=
  if sel.getLsbD 2 then s.ldtr.limit.toNat else s.gdtr.limit.toNat

/-- ReadDescriptor(sel, F, ext) (20_memory R105); vec is the vector of F. -/
def readDescriptor (sel : Half) (vec : Byte) (ext : Bool) : Exec Desc := do
  let s ← get
  check (!sel.getLsbD 2 || s.ldtr.valid) (raiseErr vec (selError sel ext))
  check (decide (tableOffset sel + 7 ≤ s.tableLimit sel)) (raiseErr vec (selError sel ext))
  let d ← sysRead (s.tableBase sel + BitVec.ofNat 32 (tableOffset sel)) 8
  pure (BitVec.ofNat 64 d)

/-- DESCRIPTOR_WRITEBACK: set bits of descriptor byte 5 in memory with SysWrite (20_memory R106, 44_protected_mode
R366; log 23). -/
def markDescriptor (sel : Half) (d : Desc) (mask : Byte) : Exec Unit := do
  let s ← get
  if s.params.descriptorWriteback then
    sysWrite (s.tableBase sel + BitVec.ofNat 32 (tableOffset sel + 5)) 1 (d.access ||| mask).toNat
  else pure ()

/-- Segment-register load in real mode (20_memory R104): limit and rights are kept. -/
def realSegment (old : Segment) (sel : Half) : Segment :=
  { old with sel := sel, base := sel.setWidth 32 <<< 4, valid := true }

/-- LoadDataSeg(s, sel) (20_memory R106). -/
def loadDataSeg (r : SReg) (sel : Half) : Exec Unit := do
  let s ← get
  if isNull sel then
    modify fun t => t.setSeg r { t.seg r with sel := sel, valid := false }
  else
    let d ← readDescriptor sel 13 false
    check d.s (protection (selError sel false))
    check (!d.rights.code || d.rights.readWrite) (protection (selError sel false))
    check ((d.rights.code && d.rights.conforming) || (decide (rpl sel ≤ d.dpl) && decide (s.cpl ≤ d.dpl)))
      (protection (selError sel false))
    check d.present (notPresent (selError sel false))
    modify fun t => t.setSeg r (d.segment sel)
    markDescriptor sel d 1

/-- LoadSS(sel) (20_memory R107). -/
def loadSS (sel : Half) : Exec Unit := do
  let s ← get
  check (!isNull sel) (protection 0)
  let d ← readDescriptor sel 13 false
  check (rpl sel == s.cpl) (protection (selError sel false))
  check (d.s && d.rights.writable) (protection (selError sel false))
  check (d.dpl == s.cpl) (protection (selError sel false))
  check d.present (stackFault (selError sel false))
  modify fun t => t.setSeg .ss (d.segment sel)
  markDescriptor sel d 1

/-- Load of a segment register other than CS (20_memory R104, R106, R107). -/
def loadSReg (r : SReg) (sel : Half) : Exec Unit := do
  let s ← get
  if s.pe then
    if r = .ss then loadSS sel else loadDataSeg r sel
  else
    modify fun t => t.setSeg r (realSegment (t.seg r) sel)

/-! ### The stack (43_stack R330, R331) -/

/-- SP zero-extended or ESP, by the stack address size (43_stack R330). -/
def State.stackPointer (s : State) : Word :=
  if s.segs.ss.ar.db then s.regs.esp else (s.regs.esp.extractLsb' 0 16).setWidth 32

/-- Write SP or ESP, by the stack address size (43_stack R330). -/
def State.setStackPointer (s : State) (v : Word) : State :=
  if s.segs.ss.ar.db then s.setReg .esp v else s.setReg .esp (putLow16 s.regs.esp (v.extractLsb' 0 16))

/-- The stack pointer moved by an amount, modulo 2^ssz (43_stack R330, R331). -/
def State.movedPointer (s : State) (delta : Word) : Word :=
  if s.segs.ss.ar.db then s.stackPointer + delta
  else ((s.stackPointer + delta).extractLsb' 0 16).setWidth 32

/-- Push of n bytes (43_stack R330). -/
def push (n v : Nat) : Exec Unit := do
  let s ← get
  let t := s.movedPointer (- BitVec.ofNat 32 n)
  segWrite .ss t n v
  modify fun s => s.setStackPointer t

/-- Pop of n bytes (43_stack R331). -/
def pop (n : Nat) : Exec Nat := do
  let s ← get
  let v ← segRead .ss s.stackPointer n
  modify fun s => s.setStackPointer (s.movedPointer (BitVec.ofNat 32 n))
  pure v

/-- Release iw bytes (46_control_transfer R440). -/
def release (iw : Half) : Exec Unit :=
  modify fun s => s.setStackPointer (s.movedPointer (iw.setWidth 32))

/-- A selector as pushed in n bytes: in a 32-bit slot the upper half is undefined(16) (43_stack R336, 60_exceptions
R502). -/
def selImage (n : Nat) (sel : Half) : Exec Nat :=
  if n = 4 then do
    let u ← draw
    pure (u.extractLsb' 16 16 ++ sel).toNat
  else pure sel.toNat

/-! ### Control transfers (46_control_transfer R430, R445 to R451) -/

/-- Truncate a target to 16 bits with a 16-bit operand size (46_control_transfer R430, R445). -/
def truncTarget (osz : Size) (t : Word) : Word :=
  if osz = .b32 then t else t &&& 0xFFFF

/-- NearTarget(t) (46_control_transfer R430). -/
def nearTarget (osz : Size) (t : Word) : Exec Unit := do
  let s ← get
  check (decide ((truncTarget osz t).toNat ≤ s.segs.cs.limit.toNat)) (protection 0)
  setEip (truncTarget osz t)

/-- System types refused as far targets: TSS, call gate, task gate (46_control_transfer R445). -/
def refusedTarget (t : BitVec 4) : Bool :=
  t == 1 || t == 3 || t == 4 || t == 5 || t == 9 || t == 11 || t == 12

/-- The protected-mode checks of FarTransfer(sel, off), without writing (46_control_transfer R445). -/
def checkFarTarget (sel : Half) (off : Word) : Exec Desc := do
  let s ← get
  check (!isNull sel) (protection 0)
  let d ← readDescriptor sel 13 false
  check (d.s || !refusedTarget d.type) (refuse .gateOrTssTarget)
  check d.s (protection (selError sel false))
  check d.rights.code (protection (selError sel false))
  check (if d.rights.conforming then decide (d.dpl ≤ s.cpl) else decide (rpl sel ≤ s.cpl) && d.dpl == s.cpl)
    (protection (selError sel false))
  check d.present (notPresent (selError sel false))
  check (decide (off.toNat ≤ d.byteLimit.toNat)) (protection 0)
  pure d

/-- Far transfer to a code segment (46_control_transfer R445); between runs after every check and before the first
write of CS and EIP: nothing for JMP, the two pushes for CALL (R447). -/
def farTransfer (osz : Size) (sel : Half) (off : Word) (between : Exec Unit) : Exec Unit := do
  let s ← get
  let t := truncTarget osz off
  if s.pe then
    let d ← checkFarTarget sel t
    between
    modify fun x => { x.setSeg .cs (d.segment (withRpl sel s.cpl)) with eip := t }
    markDescriptor sel d 1
  else
    check (decide (t.toNat ≤ s.segs.cs.limit.toNat)) (protection 0)
    between
    modify fun x => { x.setSeg .cs (realSegment x.segs.cs sel) with eip := t }

/-- StackSegFor(sel, lvl, F, ext) (46_control_transfer R449); vec is the vector of F. -/
def stackSegFor (sel : Half) (lvl : BitVec 2) (vec : Byte) (ext : Bool) : Exec Segment := do
  check (!isNull sel) (raiseErr vec (BitVec.ofNat 16 (bit ext)))
  let d ← readDescriptor sel vec ext
  check (rpl sel == lvl && d.s && d.rights.writable && d.dpl == lvl) (raiseErr vec (selError sel ext))
  check d.present (stackFault (selError sel ext))
  pure (d.segment sel)

/-- One segment register under InvalidateDataSegs(lvl) (46_control_transfer R451). -/
def Segment.invalidated (g : Segment) (lvl : BitVec 2) : Segment :=
  if g.valid && (!g.ar.code || !g.ar.conforming) && decide (g.ar.dpl < lvl) then
    { g with sel := 0, valid := false }
  else g

/-- InvalidateDataSegs(lvl) (46_control_transfer R451). -/
def invalidateDataSegs (lvl : BitVec 2) : Exec Unit :=
  modify fun s =>
    { s with
      segs :=
        { s.segs with
          es := s.segs.es.invalidated lvl
          ds := s.segs.ds.invalidated lvl
          fs := s.segs.fs.invalidated lvl
          gs := s.segs.gs.invalidated lvl } }

/-- ESP or SP of the outer stack; with a 16-bit operand size ESP[31:16] is undefined(16) (46_control_transfer
R450). -/
def setOuterPointer (osz : Size) (nsp : Nat) : Exec Unit :=
  if osz = .b32 then modify fun s => s.setReg .esp (BitVec.ofNat 32 nsp)
  else do
    let u ← draw
    modify fun s => s.setReg .esp (u.extractLsb' 16 16 ++ BitVec.ofNat 16 nsp)

/-- The outward part of FarReturn (46_control_transfer R450): the outer stack is popped from the inner one, and data
segments that are too privileged become null. -/
def outwardReturn (osz : Size) (cs : Segment) (off : Word) (lvl : BitVec 2) (iw : Half) : Exec Unit := do
  let nsp ← pop osz.bytes
  let nss ← pop osz.bytes
  let ss ← stackSegFor (BitVec.ofNat 16 nss) lvl 13 false
  modify fun x => { x.setSeg .cs cs with eip := off }
  modify fun x => x.setSeg .ss ss
  setOuterPointer osz nsp
  release iw
  invalidateDataSegs lvl

/-- FarReturn(sel, off, iw) (46_control_transfer R450). -/
def farReturn (osz : Size) (sel : Half) (off : Word) (iw : Half) : Exec Unit := do
  let s ← get
  let t := truncTarget osz off
  check (!isNull sel) (protection 0)
  check (decide (s.cpl ≤ rpl sel)) (protection (selError sel false))
  let d ← readDescriptor sel 13 false
  check (d.s && d.rights.code) (protection (selError sel false))
  check (if d.rights.conforming then decide (d.dpl ≤ rpl sel) else d.dpl == rpl sel)
    (protection (selError sel false))
  check d.present (notPresent (selError sel false))
  check (decide (t.toNat ≤ d.byteLimit.toNat)) (protection 0)
  release iw
  if rpl sel = s.cpl then
    modify fun x => { x.setSeg .cs (d.segment sel) with eip := t }
  else outwardReturn osz (d.segment sel) t (rpl sel) iw

/-- RETF in real mode, after its two pops (46_control_transfer R448). -/
def realFarReturn (osz : Size) (sel : Half) (off : Word) (iw : Half) : Exec Unit := do
  release iw
  let s ← get
  let t := truncTarget osz off
  check (decide (t.toNat ≤ s.segs.cs.limit.toNat)) (protection 0)
  modify fun x => { x.setSeg .cs (realSegment x.segs.cs sel) with eip := t }

/-- The part that RETF and IRET share after their pops (46_control_transfer R448, R470). -/
def returnTo (osz : Size) (sel : Half) (off : Word) (iw : Half) : Exec Unit := do
  let s ← get
  if s.pe then farReturn osz sel off iw else realFarReturn osz sel off iw

/-- RETF (46_control_transfer R448). -/
def retFar (osz : Size) (iw : Half) : Exec Unit := do
  let off ← pop osz.bytes
  let sel ← pop osz.bytes
  returnTo osz (BitVec.ofNat 16 sel) (BitVec.ofNat 32 off) iw

/-! ### Taking an exception (60_exceptions R500 to R508) -/

/-- The four kinds of event (60_exceptions R490). -/
inductive Source where
  | fault
  | trap
  | softInt
  | external
  deriving DecidableEq, Repr

/-- ReadTssStack(level, ext) (20_memory R115): the stack pointer and the stack selector of a level. -/
def readTssStack (lvl : BitVec 2) (ext : Bool) : Exec (Word × Half) := do
  let s ← get
  let size := if s.tr.is32 then 4 else 2
  let spAt := 2 * size * lvl.toNat + size
  check (s.tr.valid && decide (spAt + size + 1 ≤ s.tr.limit.toNat)) (taskFault (selError s.tr.sel ext))
  let sp ← sysRead (s.tr.base + BitVec.ofNat 32 spAt) size
  let ss ← sysRead (s.tr.base + BitVec.ofNat 32 (spAt + size)) 2
  pure (BitVec.ofNat 32 sp, BitVec.ofNat 16 ss)

/-- StackSwitch(n, ext) (60_exceptions R503). -/
def stackSwitch (lvl : BitVec 2) (ext : Bool) : Exec Unit := do
  let st ← readTssStack lvl ext
  let g ← stackSegFor st.2 lvl 10 ext
  modify fun s => (s.setSeg .ss g).setReg .esp st.1

/-- The end of a delivery: control at the handler, the dispatcher running, and no single-step trap follows the step
(60_exceptions R495, R501, R502, R515; log 13). -/
def enterHandler (eip : Word) (clear : Word → Word) : Exec Unit :=
  modify fun s => { s with eip := eip, eflags := clear s.eflags, activity := .running, tfAtStart := false }

/-- The flags at a real-mode handler: IF and TF clear (60_exceptions R501, R505). -/
def realFlags (fl : Word) : Word :=
  setFlag .intf false (setFlag .tf false fl)

/-- Real-mode delivery (60_exceptions R501). -/
def deliverReal (vec : Byte) (ret : Word) : Exec Unit := do
  let s ← get
  check (decide (vec.toNat * 4 + 3 ≤ s.idtr.limit.toNat)) (protection 0)
  let entNum ← sysRead (s.idtr.base + BitVec.ofNat 32 (vec.toNat * 4)) 4
  let ent := BitVec.ofNat 32 entNum
  push 2 (s.eflags.extractLsb' 0 16).toNat
  push 2 s.segs.cs.sel.toNat
  push 2 (ret.extractLsb' 0 16).toNat
  modify fun x => x.setSeg .cs (realSegment x.segs.cs (ent.extractLsb' 16 16))
  check (decide ((ent.extractLsb' 0 16).toNat ≤ s.segs.cs.limit.toNat)) (protection 0)
  enterHandler ((ent.extractLsb' 0 16).setWidth 32) realFlags

/-- An error code in IDT format (60_exceptions R483). -/
def idtError (vec : Byte) (ext : Bool) : Half :=
  BitVec.ofNat 16 (vec.toNat * 8 + 2 + bit ext)

/-- The gate types of an IDT (60_exceptions R502): task gate, and 16-bit and 32-bit interrupt and trap gates. -/
def gateType (t : BitVec 4) : Bool :=
  t == 5 || t == 6 || t == 7 || t == 14 || t == 15

/-- The vectors whose fault delivery pushes an error code (60_exceptions R482). -/
def hasErrorCode (vec : Byte) : Bool :=
  vec == 10 || vec == 11 || vec == 12 || vec == 13 || vec == 14

/-- Read the gate of a vector and check it (60_exceptions R502). -/
def readGate (vec : Byte) (src : Source) : Exec Desc := do
  let s ← get
  let ext := src != .softInt
  check (decide (vec.toNat * 8 + 7 ≤ s.idtr.limit.toNat)) (protection (idtError vec ext))
  let gNum ← sysRead (s.idtr.base + BitVec.ofNat 32 (vec.toNat * 8)) 8
  let g : Desc := BitVec.ofNat 64 gNum
  check (!g.s && gateType g.type) (protection (idtError vec ext))
  check (!(src == .softInt || s.params.gateDplCheckAllSources) || decide (s.cpl ≤ g.dpl))
    (protection (idtError vec ext))
  check g.present (notPresent (idtError vec ext))
  check (g.type != 5) (refuse .taskGate)
  pure g

/-- Read the code descriptor a gate points to and check it (60_exceptions R502). -/
def readHandler (g : Desc) (ext : Bool) : Exec Desc := do
  let s ← get
  let sel := g.gateSelector
  check (!isNull sel) (protection (BitVec.ofNat 16 (bit ext)))
  let d ← readDescriptor sel 13 ext
  check (d.s && d.rights.code && decide (d.dpl ≤ s.cpl)) (protection (selError sel ext))
  check d.present (notPresent (selError sel ext))
  check (decide ((g.gateOffset (g.type.getLsbD 3)).toNat ≤ d.byteLimit.toNat)) (protection 0)
  pure d

/-- CS at the handler's level and, for a more privileged non-conforming target, the stack switch with the old SS and
ESP pushed on the new stack (60_exceptions R502, R503); n is the gate size in bytes. -/
def enterLevel (s : State) (sel : Half) (d : Desc) (n : Nat) (ext : Bool) : Exec Unit :=
  if !d.rights.conforming && decide (d.dpl < s.cpl) then do
    stackSwitch d.dpl ext
    modify fun x => x.setSeg .cs (d.segment (withRpl sel d.dpl))
    let oss ← selImage n s.segs.ss.sel
    push n oss
    push n s.regs.esp.toNat
  else modify fun x => x.setSeg .cs (d.segment (withRpl sel s.cpl))

/-- The error code, pushed last, and only for a fault of a vector that has one (60_exceptions R482, R502). -/
def pushError (n : Nat) (vec : Byte) (src : Source) (err : Option Half) : Exec Unit :=
  if src = .fault ∧ hasErrorCode vec = true then push n (err.getD 0).toNat else pure ()

/-- The flags at the handler: TF and NT clear, IF clear through an interrupt gate (60_exceptions R502, R505). -/
def gateFlags (t : BitVec 4) (fl : Word) : Word :=
  if t == 6 || t == 14 then setFlag .intf false (setFlag .tf false (setFlag .nt false fl))
  else setFlag .tf false (setFlag .nt false fl)

/-- Protected-mode delivery (60_exceptions R502). -/
def deliverProtected (vec : Byte) (src : Source) (err : Option Half) (ret : Word) : Exec Unit := do
  let s ← get
  let ext := src != .softInt
  let g ← readGate vec src
  let d ← readHandler g ext
  let is32 := g.type.getLsbD 3
  let n := if is32 then 4 else 2
  enterLevel s g.gateSelector d n ext
  push n s.eflags.toNat
  let ocs ← selImage n s.segs.cs.sel
  push n ocs
  push n ret.toNat
  pushError n vec src err
  enterHandler (g.gateOffset is32) (gateFlags g.type)

/-- Deliver(v, src, err, ret) (60_exceptions R501, R502): TAKING AN EXCEPTION. -/
def deliver (vec : Byte) (src : Source) (err : Option Half) (ret : Word) : Exec Unit := do
  let s ← get
  if s.pe then deliverProtected vec src err ret else deliverReal vec ret

/-- The write to CR2 that survives a page fault (20_memory R132, 00_scope R16). -/
def State.withCr2 (s : State) (v : Option Word) : State :=
  match v with
  | some a => { s with cr2 := a }
  | none => s

/-- The nested delivery at depth 2; a fault in it is a double fault (60_exceptions R508). A page fault's write to CR2 is
kept when the delivery that made it is discarded (00_scope R16, 20_memory R132). -/
def deliverNested (r : Raised) (ret : Word) (s : State) : Step :=
  let kept := s.withCr2 r.cr2
  match deliver r.vec .fault r.err ret { kept with depth := 2 } with
  | .ok (_, t) => .next { t with depth := 0 }
  | .error (.fatal a) => abortOutcome a { kept with depth := 0 }
  | .error (.raise q) => .fault (.doubleFault { kept.withCr2 q.cr2 with depth := 0 })

/-- DeliverEvent(v, src, err, ret) (60_exceptions R500, R508; log 14). -/
def deliverEvent (vec : Byte) (src : Source) (err : Option Half) (ret : Word) (s : State) : Step :=
  match deliver vec src err ret { s with depth := 1 } with
  | .ok (_, t) => .next { t with depth := 0 }
  | .error (.fatal a) => abortOutcome a { s with depth := 0 }
  | .error (.raise r) => deliverNested r ret s

/-- The end of a computation on a working copy: commit, or discard and deliver the fault (60_exceptions R496). -/
def settle (s : State) (ret : Word) (r : Except Stop (Unit × State)) : Step :=
  match r with
  | .ok (_, t) => .next t
  | .error (.fatal a) => abortOutcome a s
  | .error (.raise r) => deliverEvent r.vec .fault r.err ret (s.withCr2 r.cr2)

/-- An instruction whose rule assigns EIP itself: its fetch, then its body, on a working copy (30_encoding R160,
00_scope R16). -/
def runInstr (body : Exec Unit) (s : State) : Step :=
  settle s s.eip ((touchFetch >>= fun _ => body) s)

/-- An instruction that ends with EIP <- next_eip (10_state R36). -/
def seqInstr (body : Exec Unit) (s : State) : Step :=
  runInstr (body >>= fun _ => advance) s

/-! ### Returning from an exception (46_control_transfer R470) -/

/-- IRET (46_control_transfer R470): RETURNING FROM AN EXCEPTION. The flags image goes through the mask of POPF with the
privilege held before the return. -/
def interruptReturn (osz : Size) : Exec Unit := do
  let s ← get
  check (!(s.pe && s.flag .nt)) (refuse .taskReturn)
  let off ← pop osz.bytes
  let sel ← pop osz.bytes
  let fl ← pop osz.bytes
  check (!(s.pe && osz == .b32 && s.cpl == 0 && fl.testBit 17)) (refuse .virtual8086Return)
  returnTo osz (BitVec.ofNat 16 sel) (BitVec.ofNat 32 off) 0
  modifyFlags fun old => maskedFlags (popMask s.priv0 s.ioPriv) old (BitVec.ofNat 32 fl)

/-! ### The host and its devices (60_exceptions R524 to R526, 42_string_io R318) -/

/-- One write of a host handler (60_exceptions R524, log 8): the fixed bits of EFLAGS keep their values, and a byte
outside physical memory is not written. -/
def State.hostWrite (s : State) : HostWrite → State
  | .reg r v => s.setReg r v
  | .eip v => { s with eip := v }
  | .eflags v => { s with eflags := maskedFlags flagsWmask s.eflags v }
  | .seg r v => s.setSeg r v
  | .gdtr v => { s with gdtr := v }
  | .idtr v => { s with idtr := v }
  | .ldtr v => { s with ldtr := v }
  | .tr v => { s with tr := v }
  | .control k v => s.setCreg k v
  | .debugReg k v => { s with dr := s.dr.set k v }
  | .byte a v => if a < s.params.memSize then { s with mem := Memory.write s.mem a v } else s
  | .raiseInterrupt v => { s with pendingIrq := s.pendingIrq ++ [v] }

/-- A call of a host handler: an unconstrained update supplied by the host (60_exceptions R524, log 7). -/
def State.hostCall (s : State) (e : HostEvent) : State :=
  (Config.hostWrites s.draws).foldl State.hostWrite { s with draws := s.draws + 1, events := s.events ++ [e] }

/-- Record a port call (log 6). -/
def recordEvent (e : HostEvent) : Exec Unit :=
  modify fun s => { s with events := s.events ++ [e] }

/-- PortRead(port, w) for w of 8 or 16 bits (42_string_io R318): a free value from a mapped device, all ones from the
default handler. -/
def portRead (port : Half) (w : Size) : Exec Word := do
  let s ← get
  if s.params.portHandlers.contains port then
    let u ← draw
    let v := u &&& BitVec.ofNat 32 (2 ^ w.bits - 1)
    recordEvent (.portRead port w.bits v)
    pure v
  else pure (BitVec.ofNat 32 (2 ^ w.bits - 1))

/-- PortWrite(port, w, v) (42_string_io R318). -/
def portWrite (port : Half) (w : Size) (v : Word) : Exec Unit := do
  let s ← get
  if s.params.portHandlers.contains port then recordEvent (.portWrite port w.bits v) else pure ()

/-- PortIn(port, w) (42_string_io R318): 32 bits are two word accesses, low half first. -/
def portIn (port : Half) (w : Size) : Exec Word :=
  match w with
  | .b32 => do
    let lo ← portRead port .b16
    let hi ← portRead (port + 2) .b16
    pure (hi.extractLsb' 0 16 ++ lo.extractLsb' 0 16)
  | w => portRead port w

/-- PortOut(port, w, v) (42_string_io R318). -/
def portOut (port : Half) (w : Size) (v : Word) : Exec Unit :=
  match w with
  | .b32 => do
    portWrite port .b16 ((v.extractLsb' 0 16).setWidth 32)
    portWrite (port + 2) .b16 ((v.extractLsb' 16 16).setWidth 32)
  | w => portWrite port w v

/-- IOCheck() (42_string_io R319). -/
def ioCheck : Exec Unit := do
  let s ← get
  check s.ioPriv (protection 0)

/-- The privilege check of R360 (44_protected_mode). -/
def privCheck : Exec Unit := do
  let s ← get
  check s.priv0 (protection 0)

end Sys2Proof.Machine
end

