-- ==== Sys2Proof/Machine/Operands.lean ====
section
/-! DEFINITION. Every operand form (30_encoding R164 to R180): effective addresses, r/m operands, immediates, string
elements, and the read-modify-write shapes that the instruction families share (40_arithmetic R233). -/

namespace Sys2Proof.Machine

/-- The repeat part of the prefix state (10_state R53). -/
inductive Repeat where
  | none
  | rep
  | repne
  deriving DecidableEq, Repr

/-- Segment override: the last segment prefix wins (30_encoding R165). -/
def segOverride : List Pfx → Option SReg → Option SReg
  | [], acc => acc
  | .seg r :: ps, _ => segOverride ps (some r)
  | _ :: ps, acc => segOverride ps acc

/-- Repeat: the last repeat prefix wins (30_encoding R167). -/
def repeatOf : List Pfx → Repeat → Repeat
  | [], acc => acc
  | .rep :: ps, _ => repeatOf ps .rep
  | .repne :: ps, _ => repeatOf ps .repne
  | _ :: ps, acc => repeatOf ps acc

/-- The segment of an operand whose default segment is given (30_encoding R176). -/
def segmentOr (c : Ctx) (dflt : SReg) : SReg :=
  (segOverride c.pfx none).getD dflt

/-- The register part of a 16-bit address (30_encoding R173). -/
def base16 (s : State) : Base16 → Half
  | .bxSi => s.view .b16 .ebx + s.view .b16 .esi
  | .bxDi => s.view .b16 .ebx + s.view .b16 .edi
  | .bpSi => s.view .b16 .ebp + s.view .b16 .esi
  | .bpDi => s.view .b16 .ebp + s.view .b16 .edi
  | .si => s.view .b16 .esi
  | .di => s.view .b16 .edi
  | .bp => s.view .b16 .ebp
  | .bx => s.view .b16 .ebx

/-- Default segment of a 16-bit address: SS with BP (30_encoding R173). -/
def base16Segment : Base16 → SReg
  | .bpSi => .ss
  | .bpDi => .ss
  | .bp => .ss
  | _ => .ds

/-- A 16-bit displacement (30_encoding R173). -/
def disp16 : Disp16 → Half
  | .none => 0
  | .d8 v => v.signExtend 16
  | .d16 v => v

/-- A 32-bit displacement (30_encoding R174). -/
def disp32 : Disp32 → Word
  | .none => 0
  | .d8 v => v.signExtend 32
  | .d32 v => v

/-- The index part of a SIB byte: index 4 is no index (30_encoding R175). -/
def scaledIndex (s : State) (scale : BitVec 2) (index : Reg) : Word :=
  if index = .esp then 0 else s.reg index <<< scale.toNat

/-- Default segment of a 32-bit base register: SS for ESP and EBP (30_encoding R174, R175). -/
def base32Segment (r : Reg) : SReg :=
  if r = .esp ∨ r = .ebp then .ss else .ds

/-- The effective offset (30_encoding R173 to R175); a 16-bit offset is truncated and zero-extended. -/
def effectiveOffset (s : State) : MemOp → Word
  | .abs16 v => v.setWidth 32
  | .ind16 b d => (base16 s b + disp16 d).setWidth 32
  | .abs32 v => v
  | .ind32 b d => s.reg b + disp32 d
  | .sib scale index b d => s.reg b + scaledIndex s scale index + disp32 d
  | .sibAbs scale index v => v + scaledIndex s scale index

/-- The default segment of a memory operand (30_encoding R173 to R175). -/
def defaultSegment : MemOp → SReg
  | .abs16 _ => .ds
  | .ind16 b _ => base16Segment b
  | .abs32 _ => .ds
  | .ind32 b _ => base32Segment b
  | .sib _ _ b _ => base32Segment b
  | .sibAbs _ _ _ => .ds

/-- Where an r/m operand is: a register, or EA() = (s, off) (30_encoding R176, R177). -/
inductive Loc where
  | reg (r : Reg)
  | mem (r : SReg) (off : Word)
  deriving DecidableEq, Repr

/-- EA() of a memory operand (30_encoding R176). -/
def memLoc (s : State) (m : MemOp) : SReg × Word :=
  (segmentOr s.ctx (defaultSegment m), effectiveOffset s m)

/-- EA() of an r/m operand, computed once (30_encoding R176, R177). -/
def locate (s : State) : RM → Loc
  | .reg r => .reg r
  | .mem m => .mem (memLoc s m).1 (memLoc s m).2

/-- R(w, i). -/
def readReg (w : Size) (r : Reg) : Exec (BitVec w.bits) := do
  let s ← get
  pure (s.view w r)

/-- R(w, i) <- v. -/
def writeReg (w : Size) (r : Reg) (v : BitVec w.bits) : Exec Unit :=
  modify fun s => s.setView w r v

/-- ReadRM(w) at a location (30_encoding R177). -/
def readLoc (w : Size) : Loc → Exec (BitVec w.bits)
  | .reg r => readReg w r
  | .mem g off => do
    let v ← segRead g off w.bytes
    pure (BitVec.ofNat w.bits v)

/-- WriteRM(w, v) at a location (30_encoding R177). -/
def writeLoc (w : Size) (l : Loc) (v : BitVec w.bits) : Exec Unit :=
  match l with
  | .reg r => writeReg w r v
  | .mem g off => segWrite g off w.bytes v.toNat

/-- ReadRM(w). -/
def readRM (w : Size) (rm : RM) : Exec (BitVec w.bits) := do
  let s ← get
  readLoc w (locate s rm)

/-- WriteRM(w, v). -/
def writeRM (w : Size) (rm : RM) (v : BitVec w.bits) : Exec Unit := do
  let s ← get
  writeLoc w (locate s rm) v

/-- An immediate of operand size (30_encoding R180: iz, relz). -/
def immIz (w : Size) (iz : Word) : BitVec w.bits :=
  iz.setWidth w.bits

/-- An 8-bit immediate sign-extended to operand size (30_encoding R180: ibs). -/
def immIbs (w : Size) (ib : Byte) : BitVec w.bits :=
  ib.signExtend w.bits

/-- A relative displacement of operand size, sign-extended to 32 bits (30_encoding R180: relz). -/
def relz (w : Size) (rel : Word) : Word :=
  (rel.setWidth w.bits).signExtend 32

/-! ### Operand shapes of the instruction families -/

/-- What a two-operand instruction computes from dst and src, setting flags. -/
abbrev BinOp := (w : Size) → BitVec w.bits → BitVec w.bits → Exec (BitVec w.bits)

/-- What a one-operand instruction computes from dst, setting flags. -/
abbrev UnOp := (w : Size) → BitVec w.bits → Exec (BitVec w.bits)

/-- dst is r/m, src a register: dst and src are read, the result is written through the one EA (40_arithmetic R233). -/
def rmFromReg (op : BinOp) (w : Size) (rm : RM) (r : Reg) : Exec Unit := do
  let s ← get
  let a ← readLoc w (locate s rm)
  let b ← readReg w r
  let v ← op w a b
  writeLoc w (locate s rm) v

/-- dst is a register, src r/m (40_arithmetic R233). -/
def regFromRM (op : BinOp) (w : Size) (r : Reg) (rm : RM) : Exec Unit := do
  let a ← readReg w r
  let b ← readRM w rm
  let v ← op w a b
  writeReg w r v

/-- dst is r/m, src an immediate (40_arithmetic R233). -/
def rmFromImm (op : BinOp) (w : Size) (rm : RM) (b : BitVec w.bits) : Exec Unit := do
  let s ← get
  let a ← readLoc w (locate s rm)
  let v ← op w a b
  writeLoc w (locate s rm) v

/-- dst is a register, src an immediate (40_arithmetic R233). -/
def regFromImm (op : BinOp) (w : Size) (r : Reg) (b : BitVec w.bits) : Exec Unit := do
  let a ← readReg w r
  let v ← op w a b
  writeReg w r v

/-- As rmFromReg with the result discarded (40_arithmetic R238, 41_logic_shift R265). -/
def testRMReg (op : BinOp) (w : Size) (rm : RM) (r : Reg) : Exec Unit := do
  let a ← readRM w rm
  let b ← readReg w r
  let _ ← op w a b
  pure ()

/-- As regFromRM with the result discarded. -/
def testRegRM (op : BinOp) (w : Size) (r : Reg) (rm : RM) : Exec Unit := do
  let a ← readReg w r
  let b ← readRM w rm
  let _ ← op w a b
  pure ()

/-- As rmFromImm with the result discarded. -/
def testRMImm (op : BinOp) (w : Size) (rm : RM) (b : BitVec w.bits) : Exec Unit := do
  let a ← readRM w rm
  let _ ← op w a b
  pure ()

/-- As regFromImm with the result discarded. -/
def testRegImm (op : BinOp) (w : Size) (r : Reg) (b : BitVec w.bits) : Exec Unit := do
  let a ← readReg w r
  let _ ← op w a b
  pure ()

/-- dst <- op dst for an r/m operand. -/
def updateRM (op : UnOp) (w : Size) (rm : RM) : Exec Unit := do
  let s ← get
  let a ← readLoc w (locate s rm)
  let v ← op w a
  writeLoc w (locate s rm) v

/-- dst <- op dst for a register. -/
def updateReg (op : UnOp) (w : Size) (r : Reg) : Exec Unit := do
  let a ← readReg w r
  let v ← op w a
  writeReg w r v

/-! ### String operands (42_string_io R300, R301) -/

/-- An index register or the count register by address size: SI or ESI, DI or EDI, CX or ECX (42_string_io R300). -/
def indexValue (s : State) (r : Reg) : Word :=
  (s.view s.ctx.asz r).setWidth 32

/-- The step of an index for elements of a size (42_string_io R300). -/
def indexDelta (s : State) (w : Size) : Word :=
  if s.flag .df then - BitVec.ofNat 32 w.bytes else BitVec.ofNat 32 w.bytes

/-- Write an index or count register by address size. -/
def State.setIndex (s : State) (r : Reg) (v : Word) : State :=
  s.setView s.ctx.asz r (v.setWidth s.ctx.asz.bits)

/-- Advance an index register (42_string_io R300). -/
def advanceIndex (w : Size) (r : Reg) : Exec Unit :=
  modify fun s => s.setIndex r (indexValue s r + indexDelta s w)

/-- Read the source element at (sseg, SIx) (42_string_io R300). -/
def readSource (w : Size) : Exec (BitVec w.bits) := do
  let s ← get
  let v ← segRead (segmentOr s.ctx .ds) (indexValue s .esi) w.bytes
  pure (BitVec.ofNat w.bits v)

/-- Read the destination element at (ES, DIx) (42_string_io R300). -/
def readDest (w : Size) : Exec (BitVec w.bits) := do
  let s ← get
  let v ← segRead .es (indexValue s .edi) w.bytes
  pure (BitVec.ofNat w.bits v)

/-- Write the destination element at (ES, DIx) (42_string_io R300). -/
def writeDest (w : Size) (v : BitVec w.bits) : Exec Unit := do
  let s ← get
  segWrite .es (indexValue s .edi) w.bytes v.toNat

/-- CNT <- CNT - 1 (42_string_io R301, 46_control_transfer R435). -/
def State.countDown (s : State) : State :=
  s.setIndex .ecx (indexValue s .ecx - 1)

/-- Whether a repeated string instruction ends after an iteration (42_string_io R301). -/
def repeatStops (kind : Repeat) (zterm : Bool) (s : State) : Bool :=
  indexValue s .ecx == 0 || (zterm && kind == .rep && !s.flag .zf) || (zterm && kind == .repne && s.flag .zf)

/-- One iteration of a repeated string instruction with a count that is not 0 (42_string_io R301). -/
def repeatStep (kind : Repeat) (body : Exec Unit) (zterm : Bool) : Exec Unit := do
  body
  modify State.countDown
  let s ← get
  if repeatStops kind zterm s then advance else pure ()

/-- StringStep(body, zterm) (42_string_io R301). -/
def stringStep (body : Exec Unit) (zterm : Bool) : Exec Unit := do
  let s ← get
  match repeatOf s.ctx.pfx .none with
  | .none => body >>= fun _ => advance
  | kind => if indexValue s .ecx = 0 then advance else repeatStep kind body zterm

end Sys2Proof.Machine
end

