-- ==== Sys2Proof/Machine/Arith.lean ====
section
/-! DEFINITION. The arithmetic family (40_arithmetic R234 to R246): the operations once, then one meaning per row. -/

namespace Sys2Proof.Machine

/-- AddFlags(w, a, b, 0) (40_arithmetic R231, R234). -/
def addOp : BinOp := fun _ a b => do
  modifyFlags (addFlags a b false)
  pure (addResult a b false)

/-- AddFlags(w, a, b, CF), CF being the value before the instruction (40_arithmetic R231, R235). -/
def adcOp : BinOp := fun _ a b => do
  let s ← get
  modifyFlags (addFlags a b (s.flag .cf))
  pure (addResult a b (s.flag .cf))

/-- SubFlags(w, a, b, 0) (40_arithmetic R232, R236). -/
def subOp : BinOp := fun _ a b => do
  modifyFlags (subFlags a b false)
  pure (subResult a b false)

/-- SubFlags(w, a, b, CF) (40_arithmetic R232, R237). -/
def sbbOp : BinOp := fun _ a b => do
  let s ← get
  modifyFlags (subFlags a b (s.flag .cf))
  pure (subResult a b (s.flag .cf))

/-- INC (40_arithmetic R239). -/
def incOp : UnOp := fun _ a => do
  modifyFlags (incFlags a)
  pure (a + 1)

/-- DEC (40_arithmetic R240). -/
def decOp : UnOp := fun _ a => do
  modifyFlags (decFlags a)
  pure (a - 1)

/-- NEG: SubFlags(w, 0, a, 0) (40_arithmetic R241). -/
def negOp : UnOp := fun w a => do
  modifyFlags (subFlags (0 : BitVec w.bits) a false)
  pure (subResult 0 a false)

/-- The register of the high half of the accumulator pair: AH, DX, EDX (40_arithmetic R242). -/
def highReg (w : Size) : Reg :=
  if w = .b8 then .esp else .edx

/-- The accumulator pair as one value of 2w bits: AX, DX ++ AX, EDX ++ EAX (40_arithmetic R242, R245). -/
def accPair (w : Size) (s : State) : BitVec (w.bits + w.bits) :=
  s.view w (highReg w) ++ s.view w .eax

/-- Write the accumulator pair, low half and high half (40_arithmetic R242, R245). -/
def writePair (w : Size) (hi lo : BitVec w.bits) : Exec Unit := do
  writeReg w .eax lo
  writeReg w (highReg w) hi

/-- MUL (40_arithmetic R242). -/
def mulAcc (w : Size) (rm : RM) : Exec Unit := do
  let b ← readRM w rm
  let a ← readReg w .eax
  let p := a.toNat * b.toNat
  let hi := BitVec.ofNat w.bits (p / 2 ^ w.bits)
  writePair w hi (BitVec.ofNat w.bits p)
  let u ← draw
  modifyFlags (mulFlags u (hi != 0))

/-- IMUL, one operand (40_arithmetic R243). -/
def imulAcc (w : Size) (rm : RM) : Exec Unit := do
  let b ← readRM w rm
  let a ← readReg w .eax
  let p := a.toInt * b.toInt
  let lo := BitVec.ofInt w.bits p
  writePair w (BitVec.ofInt w.bits (p / 2 ^ w.bits)) lo
  let u ← draw
  modifyFlags (mulFlags u (p != lo.toInt))

/-- The end of IMUL with two or three operands: the product truncated, CF = OF = signed overflow (40_arithmetic
R244). -/
def imulStore (w : Size) (r : Reg) (f1 f2 : BitVec w.bits) : Exec Unit := do
  let p := f1.toInt * f2.toInt
  writeReg w r (BitVec.ofInt w.bits p)
  let u ← draw
  modifyFlags (mulFlags u (decide (p < -(2 ^ (w.bits - 1))) || decide (2 ^ (w.bits - 1) - 1 < p)))

/-- IMUL, two operands (40_arithmetic R244). -/
def imulReg (w : Size) (r : Reg) (rm : RM) : Exec Unit := do
  let a ← readReg w r
  let b ← readRM w rm
  imulStore w r a b

/-- IMUL, three operands (40_arithmetic R244). -/
def imulImm (w : Size) (r : Reg) (rm : RM) (imm : BitVec w.bits) : Exec Unit := do
  let b ← readRM w rm
  imulStore w r b imm

/-- DIV (40_arithmetic R245). -/
def divAcc (w : Size) (rm : RM) : Exec Unit := do
  let d ← readRM w rm
  check (d != 0) divideError
  let s ← get
  let n := (accPair w s).toNat
  check (decide (n / d.toNat < 2 ^ w.bits)) divideError
  writePair w (BitVec.ofNat w.bits (n % d.toNat)) (BitVec.ofNat w.bits (n / d.toNat))
  let u ← draw
  modifyFlags (undefinedFlags u)

/-- IDIV: the quotient truncated toward zero, the remainder with the sign of the dividend (40_arithmetic R246). -/
def idivAcc (w : Size) (rm : RM) : Exec Unit := do
  let d ← readRM w rm
  check (d != 0) divideError
  let s ← get
  let n := (accPair w s).toInt
  let q := n.tdiv d.toInt
  check (decide (-(2 ^ (w.bits - 1)) ≤ q) && decide (q ≤ 2 ^ (w.bits - 1) - 1)) divideError
  writePair w (BitVec.ofInt w.bits (n.tmod d.toInt)) (BitVec.ofInt w.bits q)
  let u ← draw
  modifyFlags (undefinedFlags u)

/-- ADD rm8, r8 (00) (40_arithmetic R234). -/
def execAddRm8R8 (rm : RM) (r : Reg) (s : State) : Step :=
  seqInstr (rmFromReg addOp .b8 rm r) s

/-- ADD rmv, rv (01) (40_arithmetic R234). -/
def execAddRmvRv (rm : RM) (r : Reg) (s : State) : Step :=
  seqInstr (rmFromReg addOp s.ctx.osz rm r) s

/-- ADD r8, rm8 (02) (40_arithmetic R234). -/
def execAddR8Rm8 (r : Reg) (rm : RM) (s : State) : Step :=
  seqInstr (regFromRM addOp .b8 r rm) s

/-- ADD rv, rmv (03) (40_arithmetic R234). -/
def execAddRvRmv (r : Reg) (rm : RM) (s : State) : Step :=
  seqInstr (regFromRM addOp s.ctx.osz r rm) s

/-- ADD AL, ib (04) (40_arithmetic R234). -/
def execAddAlIb (ib : Byte) (s : State) : Step :=
  seqInstr (regFromImm addOp .b8 .eax ib) s

/-- ADD eAX, iz (05) (40_arithmetic R234). -/
def execAddEaxIz (iz : Word) (s : State) : Step :=
  seqInstr (regFromImm addOp s.ctx.osz .eax (immIz s.ctx.osz iz)) s

/-- ADC rm8, r8 (10) (40_arithmetic R235). -/
def execAdcRm8R8 (rm : RM) (r : Reg) (s : State) : Step :=
  seqInstr (rmFromReg adcOp .b8 rm r) s

/-- ADC rmv, rv (11) (40_arithmetic R235). -/
def execAdcRmvRv (rm : RM) (r : Reg) (s : State) : Step :=
  seqInstr (rmFromReg adcOp s.ctx.osz rm r) s

/-- ADC r8, rm8 (12) (40_arithmetic R235). -/
def execAdcR8Rm8 (r : Reg) (rm : RM) (s : State) : Step :=
  seqInstr (regFromRM adcOp .b8 r rm) s

/-- ADC rv, rmv (13) (40_arithmetic R235). -/
def execAdcRvRmv (r : Reg) (rm : RM) (s : State) : Step :=
  seqInstr (regFromRM adcOp s.ctx.osz r rm) s

/-- ADC AL, ib (14) (40_arithmetic R235). -/
def execAdcAlIb (ib : Byte) (s : State) : Step :=
  seqInstr (regFromImm adcOp .b8 .eax ib) s

/-- ADC eAX, iz (15) (40_arithmetic R235). -/
def execAdcEaxIz (iz : Word) (s : State) : Step :=
  seqInstr (regFromImm adcOp s.ctx.osz .eax (immIz s.ctx.osz iz)) s

/-- SBB rm8, r8 (18) (40_arithmetic R237). -/
def execSbbRm8R8 (rm : RM) (r : Reg) (s : State) : Step :=
  seqInstr (rmFromReg sbbOp .b8 rm r) s

/-- SBB rmv, rv (19) (40_arithmetic R237). -/
def execSbbRmvRv (rm : RM) (r : Reg) (s : State) : Step :=
  seqInstr (rmFromReg sbbOp s.ctx.osz rm r) s

/-- SBB r8, rm8 (1A) (40_arithmetic R237). -/
def execSbbR8Rm8 (r : Reg) (rm : RM) (s : State) : Step :=
  seqInstr (regFromRM sbbOp .b8 r rm) s

/-- SBB rv, rmv (1B) (40_arithmetic R237). -/
def execSbbRvRmv (r : Reg) (rm : RM) (s : State) : Step :=
  seqInstr (regFromRM sbbOp s.ctx.osz r rm) s

/-- SBB AL, ib (1C) (40_arithmetic R237). -/
def execSbbAlIb (ib : Byte) (s : State) : Step :=
  seqInstr (regFromImm sbbOp .b8 .eax ib) s

/-- SBB eAX, iz (1D) (40_arithmetic R237). -/
def execSbbEaxIz (iz : Word) (s : State) : Step :=
  seqInstr (regFromImm sbbOp s.ctx.osz .eax (immIz s.ctx.osz iz)) s

/-- SUB rm8, r8 (28) (40_arithmetic R236). -/
def execSubRm8R8 (rm : RM) (r : Reg) (s : State) : Step :=
  seqInstr (rmFromReg subOp .b8 rm r) s

/-- SUB rmv, rv (29) (40_arithmetic R236). -/
def execSubRmvRv (rm : RM) (r : Reg) (s : State) : Step :=
  seqInstr (rmFromReg subOp s.ctx.osz rm r) s

/-- SUB r8, rm8 (2A) (40_arithmetic R236). -/
def execSubR8Rm8 (r : Reg) (rm : RM) (s : State) : Step :=
  seqInstr (regFromRM subOp .b8 r rm) s

/-- SUB rv, rmv (2B) (40_arithmetic R236). -/
def execSubRvRmv (r : Reg) (rm : RM) (s : State) : Step :=
  seqInstr (regFromRM subOp s.ctx.osz r rm) s

/-- SUB AL, ib (2C) (40_arithmetic R236). -/
def execSubAlIb (ib : Byte) (s : State) : Step :=
  seqInstr (regFromImm subOp .b8 .eax ib) s

/-- SUB eAX, iz (2D) (40_arithmetic R236). -/
def execSubEaxIz (iz : Word) (s : State) : Step :=
  seqInstr (regFromImm subOp s.ctx.osz .eax (immIz s.ctx.osz iz)) s

/-- CMP rm8, r8 (38) (40_arithmetic R238). -/
def execCmpRm8R8 (rm : RM) (r : Reg) (s : State) : Step :=
  seqInstr (testRMReg subOp .b8 rm r) s

/-- CMP rmv, rv (39) (40_arithmetic R238). -/
def execCmpRmvRv (rm : RM) (r : Reg) (s : State) : Step :=
  seqInstr (testRMReg subOp s.ctx.osz rm r) s

/-- CMP r8, rm8 (3A) (40_arithmetic R238). -/
def execCmpR8Rm8 (r : Reg) (rm : RM) (s : State) : Step :=
  seqInstr (testRegRM subOp .b8 r rm) s

/-- CMP rv, rmv (3B) (40_arithmetic R238). -/
def execCmpRvRmv (r : Reg) (rm : RM) (s : State) : Step :=
  seqInstr (testRegRM subOp s.ctx.osz r rm) s

/-- CMP AL, ib (3C) (40_arithmetic R238). -/
def execCmpAlIb (ib : Byte) (s : State) : Step :=
  seqInstr (testRegImm subOp .b8 .eax ib) s

/-- CMP eAX, iz (3D) (40_arithmetic R238). -/
def execCmpEaxIz (iz : Word) (s : State) : Step :=
  seqInstr (testRegImm subOp s.ctx.osz .eax (immIz s.ctx.osz iz)) s

/-- ADD rm8, ib (80 /0) (40_arithmetic R234). -/
def execAddRm8Ib (rm : RM) (ib : Byte) (s : State) : Step :=
  seqInstr (rmFromImm addOp .b8 rm ib) s

/-- ADD rmv, iz (81 /0) (40_arithmetic R234). -/
def execAddRmvIz (rm : RM) (iz : Word) (s : State) : Step :=
  seqInstr (rmFromImm addOp s.ctx.osz rm (immIz s.ctx.osz iz)) s

/-- ADD rmv, ibs (83 /0) (40_arithmetic R234). -/
def execAddRmvIbs (rm : RM) (ib : Byte) (s : State) : Step :=
  seqInstr (rmFromImm addOp s.ctx.osz rm (immIbs s.ctx.osz ib)) s

/-- ADC rm8, ib (80 /2) (40_arithmetic R235). -/
def execAdcRm8Ib (rm : RM) (ib : Byte) (s : State) : Step :=
  seqInstr (rmFromImm adcOp .b8 rm ib) s

/-- ADC rmv, iz (81 /2) (40_arithmetic R235). -/
def execAdcRmvIz (rm : RM) (iz : Word) (s : State) : Step :=
  seqInstr (rmFromImm adcOp s.ctx.osz rm (immIz s.ctx.osz iz)) s

/-- ADC rmv, ibs (83 /2) (40_arithmetic R235). -/
def execAdcRmvIbs (rm : RM) (ib : Byte) (s : State) : Step :=
  seqInstr (rmFromImm adcOp s.ctx.osz rm (immIbs s.ctx.osz ib)) s

/-- SBB rm8, ib (80 /3) (40_arithmetic R237). -/
def execSbbRm8Ib (rm : RM) (ib : Byte) (s : State) : Step :=
  seqInstr (rmFromImm sbbOp .b8 rm ib) s

/-- SBB rmv, iz (81 /3) (40_arithmetic R237). -/
def execSbbRmvIz (rm : RM) (iz : Word) (s : State) : Step :=
  seqInstr (rmFromImm sbbOp s.ctx.osz rm (immIz s.ctx.osz iz)) s

/-- SBB rmv, ibs (83 /3) (40_arithmetic R237). -/
def execSbbRmvIbs (rm : RM) (ib : Byte) (s : State) : Step :=
  seqInstr (rmFromImm sbbOp s.ctx.osz rm (immIbs s.ctx.osz ib)) s

/-- SUB rm8, ib (80 /5) (40_arithmetic R236). -/
def execSubRm8Ib (rm : RM) (ib : Byte) (s : State) : Step :=
  seqInstr (rmFromImm subOp .b8 rm ib) s

/-- SUB rmv, iz (81 /5) (40_arithmetic R236). -/
def execSubRmvIz (rm : RM) (iz : Word) (s : State) : Step :=
  seqInstr (rmFromImm subOp s.ctx.osz rm (immIz s.ctx.osz iz)) s

/-- SUB rmv, ibs (83 /5) (40_arithmetic R236). -/
def execSubRmvIbs (rm : RM) (ib : Byte) (s : State) : Step :=
  seqInstr (rmFromImm subOp s.ctx.osz rm (immIbs s.ctx.osz ib)) s

/-- CMP rm8, ib (80 /7) (40_arithmetic R238). -/
def execCmpRm8Ib (rm : RM) (ib : Byte) (s : State) : Step :=
  seqInstr (testRMImm subOp .b8 rm ib) s

/-- CMP rmv, iz (81 /7) (40_arithmetic R238). -/
def execCmpRmvIz (rm : RM) (iz : Word) (s : State) : Step :=
  seqInstr (testRMImm subOp s.ctx.osz rm (immIz s.ctx.osz iz)) s

/-- CMP rmv, ibs (83 /7) (40_arithmetic R238). -/
def execCmpRmvIbs (rm : RM) (ib : Byte) (s : State) : Step :=
  seqInstr (testRMImm subOp s.ctx.osz rm (immIbs s.ctx.osz ib)) s

/-- INC rv (40) (40_arithmetic R239). -/
def execIncRv (r : Reg) (s : State) : Step :=
  seqInstr (updateReg incOp s.ctx.osz r) s

/-- DEC rv (48) (40_arithmetic R240). -/
def execDecRv (r : Reg) (s : State) : Step :=
  seqInstr (updateReg decOp s.ctx.osz r) s

/-- IMUL rv, rmv, iz (69) (40_arithmetic R244). -/
def execImulRvRmvIz (r : Reg) (rm : RM) (iz : Word) (s : State) : Step :=
  seqInstr (imulImm s.ctx.osz r rm (immIz s.ctx.osz iz)) s

/-- IMUL rv, rmv, ibs (6B) (40_arithmetic R244). -/
def execImulRvRmvIbs (r : Reg) (rm : RM) (ib : Byte) (s : State) : Step :=
  seqInstr (imulImm s.ctx.osz r rm (immIbs s.ctx.osz ib)) s

/-- NEG rm8 (F6 /3) (40_arithmetic R241). -/
def execNegRm8 (rm : RM) (s : State) : Step :=
  seqInstr (updateRM negOp .b8 rm) s

/-- MUL rm8 (F6 /4) (40_arithmetic R242). -/
def execMulRm8 (rm : RM) (s : State) : Step :=
  seqInstr (mulAcc .b8 rm) s

/-- IMUL rm8 (F6 /5) (40_arithmetic R243). -/
def execImulRm8 (rm : RM) (s : State) : Step :=
  seqInstr (imulAcc .b8 rm) s

/-- DIV rm8 (F6 /6) (40_arithmetic R245). -/
def execDivRm8 (rm : RM) (s : State) : Step :=
  seqInstr (divAcc .b8 rm) s

/-- IDIV rm8 (F6 /7) (40_arithmetic R246). -/
def execIdivRm8 (rm : RM) (s : State) : Step :=
  seqInstr (idivAcc .b8 rm) s

/-- NEG rmv (F7 /3) (40_arithmetic R241). -/
def execNegRmv (rm : RM) (s : State) : Step :=
  seqInstr (updateRM negOp s.ctx.osz rm) s

/-- MUL rmv (F7 /4) (40_arithmetic R242). -/
def execMulRmv (rm : RM) (s : State) : Step :=
  seqInstr (mulAcc s.ctx.osz rm) s

/-- IMUL rmv (F7 /5) (40_arithmetic R243). -/
def execImulRmv (rm : RM) (s : State) : Step :=
  seqInstr (imulAcc s.ctx.osz rm) s

/-- DIV rmv (F7 /6) (40_arithmetic R245). -/
def execDivRmv (rm : RM) (s : State) : Step :=
  seqInstr (divAcc s.ctx.osz rm) s

/-- IDIV rmv (F7 /7) (40_arithmetic R246). -/
def execIdivRmv (rm : RM) (s : State) : Step :=
  seqInstr (idivAcc s.ctx.osz rm) s

/-- INC rm8 (FE /0) (40_arithmetic R239). -/
def execIncRm8 (rm : RM) (s : State) : Step :=
  seqInstr (updateRM incOp .b8 rm) s

/-- DEC rm8 (FE /1) (40_arithmetic R240). -/
def execDecRm8 (rm : RM) (s : State) : Step :=
  seqInstr (updateRM decOp .b8 rm) s

/-- INC rmv (FF /0) (40_arithmetic R239). -/
def execIncRmv (rm : RM) (s : State) : Step :=
  seqInstr (updateRM incOp s.ctx.osz rm) s

/-- DEC rmv (FF /1) (40_arithmetic R240). -/
def execDecRmv (rm : RM) (s : State) : Step :=
  seqInstr (updateRM decOp s.ctx.osz rm) s

/-- IMUL rv, rmv (0F AF) (40_arithmetic R244). -/
def execImulRvRmv (r : Reg) (rm : RM) (s : State) : Step :=
  seqInstr (imulReg s.ctx.osz r rm) s

end Sys2Proof.Machine
end

