-- ==== Sys2Proof/Machine/Control.lean ====
section
/-! DEFINITION. Control transfer (46_control_transfer R430 to R470): the operations once, then one meaning per row. -/

namespace Sys2Proof.Machine

/-- JMP relative (46_control_transfer R431). -/
def jumpRel (osz : Size) (rel : Word) : Exec Unit := do
  let s ← get
  nearTarget osz (s.nextEip + rel)

/-- Take a relative branch, or fall through with no limit check (46_control_transfer R433). -/
def branchIf (b : Bool) (osz : Size) (rel : Word) : Exec Unit :=
  if b then jumpRel osz rel else advance

/-- Jcc (46_control_transfer R433). -/
def jumpCond (cc : Cond) (osz : Size) (rel : Word) : Exec Unit := do
  let s ← get
  branchIf (condHolds cc s.eflags) osz rel

/-- JMP indirect near (46_control_transfer R432). -/
def jumpRM (osz : Size) (rm : RM) : Exec Unit := do
  let t ← readRM osz rm
  nearTarget osz (t.setWidth 32)

/-- JCXZ (46_control_transfer R434). -/
def jumpCountZero (osz : Size) (rel : Word) : Exec Unit := do
  let s ← get
  branchIf (indexValue s .ecx == 0) osz rel

/-- LOOP, LOOPE, LOOPNE: the count goes down, and the branch needs a count that is not 0 and the condition on ZF
(46_control_transfer R435 to R437). -/
def loopBranch (zf : State → Bool) (osz : Size) (rel : Word) : Exec Unit := do
  modify State.countDown
  let s ← get
  branchIf (indexValue s .ecx != 0 && zf s) osz rel

/-- CALL near: the return address is pushed, then the transfer made (46_control_transfer R438, R439). -/
def callNear (osz : Size) (t : Word) : Exec Unit := do
  let s ← get
  push osz.bytes s.nextEip.toNat
  nearTarget osz t

/-- CALL relative (46_control_transfer R438). -/
def callRel (osz : Size) (rel : Word) : Exec Unit := do
  let s ← get
  callNear osz (s.nextEip + rel)

/-- CALL indirect near: the target is read before the push (46_control_transfer R439). -/
def callRM (osz : Size) (rm : RM) : Exec Unit := do
  let t ← readRM osz rm
  callNear osz (t.setWidth 32)

/-- RET near (46_control_transfer R440). -/
def retNear (osz : Size) (iw : Half) : Exec Unit := do
  let t ← pop osz.bytes
  release iw
  nearTarget osz (BitVec.ofNat 32 t)

/-- A far pointer in memory: offset, then selector (46_control_transfer R446). -/
def readFarPointer (osz : Size) (m : MemOp) : Exec (Half × Word) := do
  let s ← get
  let p ← segRead (memLoc s m).1 (memLoc s m).2 (osz.bytes + 2)
  pure (BitVec.ofNat 16 (p / 2 ^ osz.bits), BitVec.ofNat 32 (p % 2 ^ osz.bits))

/-- JMP far (46_control_transfer R446). -/
def jumpFar (osz : Size) (sel : Half) (off : Word) : Exec Unit :=
  farTransfer osz sel off (pure ())

/-- JMP far through memory (46_control_transfer R446). -/
def jumpFarMem (osz : Size) (m : MemOp) : Exec Unit := do
  let p ← readFarPointer osz m
  jumpFar osz p.1 p.2

/-- The two pushes of CALL far: CS, then the return address (46_control_transfer R447). -/
def pushReturn (osz : Size) : Exec Unit := do
  let s ← get
  let cs ← selImage osz.bytes s.segs.cs.sel
  push osz.bytes cs
  push osz.bytes s.nextEip.toNat

/-- CALL far (46_control_transfer R447). -/
def callFar (osz : Size) (sel : Half) (off : Word) : Exec Unit :=
  farTransfer osz sel off (pushReturn osz)

/-- CALL far through memory (46_control_transfer R447). -/
def callFarMem (osz : Size) (m : MemOp) : Exec Unit := do
  let p ← readFarPointer osz m
  callFar osz p.1 p.2

/-- A software interrupt served by the host: EIP advances past the instruction, whatever the handler wrote there
(60_exceptions R524, log 7). -/
def hostService (e : HostEvent) : Exec Unit :=
  modify fun s => { s.hostCall e with eip := s.nextEip }

/-- INT n (46_control_transfer R460): a multiplex handler, an emulated vector, or delivery inside the step. -/
def softInt (vec : Byte) : Exec Unit := do
  let s ← get
  if vec = 0x2F ∧ s.params.multiplexHandlers.contains (s.view .b8 .esp) = true then
    hostService (.multiplex (s.view .b8 .esp))
  else if s.params.emulatedVectors.contains vec then hostService (.interrupt vec)
  else deliver vec .softInt none s.nextEip

/-- INTO (46_control_transfer R462). -/
def overflowInt : Exec Unit := do
  let s ← get
  if s.flag .of then softInt 4 else advance

/-- Jcc rel8 (70) (46_control_transfer R433). -/
def execJccRel8 (cc : Cond) (rel : Byte) (s : State) : Step :=
  runInstr (jumpCond cc s.ctx.osz (rel.signExtend 32)) s

/-- CALL ptr16:z (9A) (46_control_transfer R447). -/
def execCallFarPtr (off : Word) (sel : Half) (s : State) : Step :=
  runInstr (callFar s.ctx.osz sel off) s

/-- RET iw (C2) (46_control_transfer R440). -/
def execRetIw (iw : Half) (s : State) : Step :=
  runInstr (retNear s.ctx.osz iw) s

/-- RET (C3) (46_control_transfer R440). -/
def execRet (s : State) : Step :=
  runInstr (retNear s.ctx.osz 0) s

/-- RETF iw (CA) (46_control_transfer R448). -/
def execRetfIw (iw : Half) (s : State) : Step :=
  runInstr (retFar s.ctx.osz iw) s

/-- RETF (CB) (46_control_transfer R448). -/
def execRetf (s : State) : Step :=
  runInstr (retFar s.ctx.osz 0) s

/-- INT3 (CC) (46_control_transfer R461). -/
def execInt3 (s : State) : Step :=
  runInstr (softInt 3) s

/-- INT ib (CD) (46_control_transfer R460). -/
def execIntIb (ib : Byte) (s : State) : Step :=
  runInstr (softInt ib) s

/-- INTO (CE) (46_control_transfer R462). -/
def execInto (s : State) : Step :=
  runInstr overflowInt s

/-- IRET (CF) (46_control_transfer R470). -/
def execIret (s : State) : Step :=
  runInstr (interruptReturn s.ctx.osz) s

/-- LOOPNE rel8 (E0) (46_control_transfer R437). -/
def execLoopneRel8 (rel : Byte) (s : State) : Step :=
  runInstr (loopBranch (fun t => !t.flag .zf) s.ctx.osz (rel.signExtend 32)) s

/-- LOOPE rel8 (E1) (46_control_transfer R436). -/
def execLoopeRel8 (rel : Byte) (s : State) : Step :=
  runInstr (loopBranch (fun t => t.flag .zf) s.ctx.osz (rel.signExtend 32)) s

/-- LOOP rel8 (E2) (46_control_transfer R435). -/
def execLoopRel8 (rel : Byte) (s : State) : Step :=
  runInstr (loopBranch (fun _ => true) s.ctx.osz (rel.signExtend 32)) s

/-- JCXZ rel8 (E3) (46_control_transfer R434). -/
def execJcxzRel8 (rel : Byte) (s : State) : Step :=
  runInstr (jumpCountZero s.ctx.osz (rel.signExtend 32)) s

/-- CALL relz (E8) (46_control_transfer R438). -/
def execCallRelz (rel : Word) (s : State) : Step :=
  runInstr (callRel s.ctx.osz (relz s.ctx.osz rel)) s

/-- JMP relz (E9) (46_control_transfer R431). -/
def execJmpRelz (rel : Word) (s : State) : Step :=
  runInstr (jumpRel s.ctx.osz (relz s.ctx.osz rel)) s

/-- JMP ptr16:z (EA) (46_control_transfer R446). -/
def execJmpFarPtr (off : Word) (sel : Half) (s : State) : Step :=
  runInstr (jumpFar s.ctx.osz sel off) s

/-- JMP rel8 (EB) (46_control_transfer R431). -/
def execJmpRel8 (rel : Byte) (s : State) : Step :=
  runInstr (jumpRel s.ctx.osz (rel.signExtend 32)) s

/-- CALL rmv (FF /2) (46_control_transfer R439). -/
def execCallRmv (rm : RM) (s : State) : Step :=
  runInstr (callRM s.ctx.osz rm) s

/-- CALL m16:z (FF /3) (46_control_transfer R447). -/
def execCallFarMem (m : MemOp) (s : State) : Step :=
  runInstr (callFarMem s.ctx.osz m) s

/-- JMP rmv (FF /4) (46_control_transfer R432). -/
def execJmpRmv (rm : RM) (s : State) : Step :=
  runInstr (jumpRM s.ctx.osz rm) s

/-- JMP m16:z (FF /5) (46_control_transfer R446). -/
def execJmpFarMem (m : MemOp) (s : State) : Step :=
  runInstr (jumpFarMem s.ctx.osz m) s

/-- Jcc relz (0F 80) (46_control_transfer R433). -/
def execJccRelz (cc : Cond) (rel : Word) (s : State) : Step :=
  runInstr (jumpCond cc s.ctx.osz (relz s.ctx.osz rel)) s

end Sys2Proof.Machine
end

