-- ==== Sys2Proof/Machine/Logic.lean ====
section
/-! DEFINITION. Logic and set-on-condition (41_logic_shift R260 to R265, R276): the operations once, then one meaning
per row. -/

namespace Sys2Proof.Machine

/-- The result r of a logic instruction with LogicFlags(w, r) (41_logic_shift R260). -/
def logicResult {n : Nat} (r : BitVec n) : Exec (BitVec n) := do
  let u ← draw
  modifyFlags (logicFlags u r)
  pure r

/-- AND and TEST (41_logic_shift R261, R265). -/
def andOp : BinOp := fun _ a b => logicResult (a &&& b)

/-- OR (41_logic_shift R262). -/
def orOp : BinOp := fun _ a b => logicResult (a ||| b)

/-- XOR (41_logic_shift R263). -/
def xorOp : BinOp := fun _ a b => logicResult (a ^^^ b)

/-- NOT (41_logic_shift R264). -/
def notOp : UnOp := fun _ a => pure (~~~a)

/-- SETcc (41_logic_shift R276). -/
def setOnCond (cc : Cond) (rm : RM) : Exec Unit := do
  let s ← get
  writeRM .b8 rm (if condHolds cc s.eflags then 1 else 0)

/-- OR rm8, r8 (08) (41_logic_shift R262). -/
def execOrRm8R8 (rm : RM) (r : Reg) (s : State) : Step :=
  seqInstr (rmFromReg orOp .b8 rm r) s

/-- OR rmv, rv (09) (41_logic_shift R262). -/
def execOrRmvRv (rm : RM) (r : Reg) (s : State) : Step :=
  seqInstr (rmFromReg orOp s.ctx.osz rm r) s

/-- OR r8, rm8 (0A) (41_logic_shift R262). -/
def execOrR8Rm8 (r : Reg) (rm : RM) (s : State) : Step :=
  seqInstr (regFromRM orOp .b8 r rm) s

/-- OR rv, rmv (0B) (41_logic_shift R262). -/
def execOrRvRmv (r : Reg) (rm : RM) (s : State) : Step :=
  seqInstr (regFromRM orOp s.ctx.osz r rm) s

/-- OR AL, ib (0C) (41_logic_shift R262). -/
def execOrAlIb (ib : Byte) (s : State) : Step :=
  seqInstr (regFromImm orOp .b8 .eax ib) s

/-- OR eAX, iz (0D) (41_logic_shift R262). -/
def execOrEaxIz (iz : Word) (s : State) : Step :=
  seqInstr (regFromImm orOp s.ctx.osz .eax (immIz s.ctx.osz iz)) s

/-- AND rm8, r8 (20) (41_logic_shift R261). -/
def execAndRm8R8 (rm : RM) (r : Reg) (s : State) : Step :=
  seqInstr (rmFromReg andOp .b8 rm r) s

/-- AND rmv, rv (21) (41_logic_shift R261). -/
def execAndRmvRv (rm : RM) (r : Reg) (s : State) : Step :=
  seqInstr (rmFromReg andOp s.ctx.osz rm r) s

/-- AND r8, rm8 (22) (41_logic_shift R261). -/
def execAndR8Rm8 (r : Reg) (rm : RM) (s : State) : Step :=
  seqInstr (regFromRM andOp .b8 r rm) s

/-- AND rv, rmv (23) (41_logic_shift R261). -/
def execAndRvRmv (r : Reg) (rm : RM) (s : State) : Step :=
  seqInstr (regFromRM andOp s.ctx.osz r rm) s

/-- AND AL, ib (24) (41_logic_shift R261). -/
def execAndAlIb (ib : Byte) (s : State) : Step :=
  seqInstr (regFromImm andOp .b8 .eax ib) s

/-- AND eAX, iz (25) (41_logic_shift R261). -/
def execAndEaxIz (iz : Word) (s : State) : Step :=
  seqInstr (regFromImm andOp s.ctx.osz .eax (immIz s.ctx.osz iz)) s

/-- XOR rm8, r8 (30) (41_logic_shift R263). -/
def execXorRm8R8 (rm : RM) (r : Reg) (s : State) : Step :=
  seqInstr (rmFromReg xorOp .b8 rm r) s

/-- XOR rmv, rv (31) (41_logic_shift R263). -/
def execXorRmvRv (rm : RM) (r : Reg) (s : State) : Step :=
  seqInstr (rmFromReg xorOp s.ctx.osz rm r) s

/-- XOR r8, rm8 (32) (41_logic_shift R263). -/
def execXorR8Rm8 (r : Reg) (rm : RM) (s : State) : Step :=
  seqInstr (regFromRM xorOp .b8 r rm) s

/-- XOR rv, rmv (33) (41_logic_shift R263). -/
def execXorRvRmv (r : Reg) (rm : RM) (s : State) : Step :=
  seqInstr (regFromRM xorOp s.ctx.osz r rm) s

/-- XOR AL, ib (34) (41_logic_shift R263). -/
def execXorAlIb (ib : Byte) (s : State) : Step :=
  seqInstr (regFromImm xorOp .b8 .eax ib) s

/-- XOR eAX, iz (35) (41_logic_shift R263). -/
def execXorEaxIz (iz : Word) (s : State) : Step :=
  seqInstr (regFromImm xorOp s.ctx.osz .eax (immIz s.ctx.osz iz)) s

/-- OR rm8, ib (80 /1) (41_logic_shift R262). -/
def execOrRm8Ib (rm : RM) (ib : Byte) (s : State) : Step :=
  seqInstr (rmFromImm orOp .b8 rm ib) s

/-- OR rmv, iz (81 /1) (41_logic_shift R262). -/
def execOrRmvIz (rm : RM) (iz : Word) (s : State) : Step :=
  seqInstr (rmFromImm orOp s.ctx.osz rm (immIz s.ctx.osz iz)) s

/-- OR rmv, ibs (83 /1) (41_logic_shift R262). -/
def execOrRmvIbs (rm : RM) (ib : Byte) (s : State) : Step :=
  seqInstr (rmFromImm orOp s.ctx.osz rm (immIbs s.ctx.osz ib)) s

/-- AND rm8, ib (80 /4) (41_logic_shift R261). -/
def execAndRm8Ib (rm : RM) (ib : Byte) (s : State) : Step :=
  seqInstr (rmFromImm andOp .b8 rm ib) s

/-- AND rmv, iz (81 /4) (41_logic_shift R261). -/
def execAndRmvIz (rm : RM) (iz : Word) (s : State) : Step :=
  seqInstr (rmFromImm andOp s.ctx.osz rm (immIz s.ctx.osz iz)) s

/-- AND rmv, ibs (83 /4) (41_logic_shift R261). -/
def execAndRmvIbs (rm : RM) (ib : Byte) (s : State) : Step :=
  seqInstr (rmFromImm andOp s.ctx.osz rm (immIbs s.ctx.osz ib)) s

/-- XOR rm8, ib (80 /6) (41_logic_shift R263). -/
def execXorRm8Ib (rm : RM) (ib : Byte) (s : State) : Step :=
  seqInstr (rmFromImm xorOp .b8 rm ib) s

/-- XOR rmv, iz (81 /6) (41_logic_shift R263). -/
def execXorRmvIz (rm : RM) (iz : Word) (s : State) : Step :=
  seqInstr (rmFromImm xorOp s.ctx.osz rm (immIz s.ctx.osz iz)) s

/-- XOR rmv, ibs (83 /6) (41_logic_shift R263). -/
def execXorRmvIbs (rm : RM) (ib : Byte) (s : State) : Step :=
  seqInstr (rmFromImm xorOp s.ctx.osz rm (immIbs s.ctx.osz ib)) s

/-- TEST rm8, r8 (84) (41_logic_shift R265). -/
def execTestRm8R8 (rm : RM) (r : Reg) (s : State) : Step :=
  seqInstr (testRMReg andOp .b8 rm r) s

/-- TEST rmv, rv (85) (41_logic_shift R265). -/
def execTestRmvRv (rm : RM) (r : Reg) (s : State) : Step :=
  seqInstr (testRMReg andOp s.ctx.osz rm r) s

/-- TEST AL, ib (A8) (41_logic_shift R265). -/
def execTestAlIb (ib : Byte) (s : State) : Step :=
  seqInstr (testRegImm andOp .b8 .eax ib) s

/-- TEST eAX, iz (A9) (41_logic_shift R265). -/
def execTestEaxIz (iz : Word) (s : State) : Step :=
  seqInstr (testRegImm andOp s.ctx.osz .eax (immIz s.ctx.osz iz)) s

/-- TEST rm8, ib (F6 /0) (41_logic_shift R265). -/
def execTestRm8Ib (rm : RM) (ib : Byte) (s : State) : Step :=
  seqInstr (testRMImm andOp .b8 rm ib) s

/-- NOT rm8 (F6 /2) (41_logic_shift R264). -/
def execNotRm8 (rm : RM) (s : State) : Step :=
  seqInstr (updateRM notOp .b8 rm) s

/-- TEST rmv, iz (F7 /0) (41_logic_shift R265). -/
def execTestRmvIz (rm : RM) (iz : Word) (s : State) : Step :=
  seqInstr (testRMImm andOp s.ctx.osz rm (immIz s.ctx.osz iz)) s

/-- NOT rmv (F7 /2) (41_logic_shift R264). -/
def execNotRmv (rm : RM) (s : State) : Step :=
  seqInstr (updateRM notOp s.ctx.osz rm) s

/-- SETcc rm8 (0F 90) (41_logic_shift R276). -/
def execSetccRm8 (cc : Cond) (_ig : BitVec 3) (rm : RM) (s : State) : Step :=
  seqInstr (setOnCond cc rm) s

end Sys2Proof.Machine
end

