-- ==== Sys2Proof/Machine/Move.lean ====
section
/-! DEFINITION. Data movement and flag control (45_data_movement R400 to R417): the operations once, then one meaning
per row. -/

namespace Sys2Proof.Machine

/-- MOV r/m <- register (45_data_movement R400). -/
def moveToRM (w : Size) (rm : RM) (r : Reg) : Exec Unit := do
  let v ← readReg w r
  writeRM w rm v

/-- MOV register <- r/m (45_data_movement R400). -/
def moveToReg (w : Size) (r : Reg) (rm : RM) : Exec Unit := do
  let v ← readRM w rm
  writeReg w r v

/-- MOV accumulator <- moffs (45_data_movement R401). -/
def loadMoffs (w : Size) (off : Word) : Exec Unit := do
  let s ← get
  let v ← segRead (segmentOr s.ctx .ds) off w.bytes
  writeReg w .eax (BitVec.ofNat w.bits v)

/-- MOV moffs <- accumulator (45_data_movement R401). -/
def storeMoffs (w : Size) (off : Word) : Exec Unit := do
  let s ← get
  segWrite (segmentOr s.ctx .ds) off w.bytes (s.view w .eax).toNat

/-- XCHG with an r/m operand (45_data_movement R403). -/
def exchangeRM (w : Size) (rm : RM) (r : Reg) : Exec Unit := do
  let s ← get
  let a ← readLoc w (locate s rm)
  let b ← readReg w r
  writeLoc w (locate s rm) b
  writeReg w r a

/-- XCHG of two registers (45_data_movement R403). -/
def exchangeAcc (w : Size) (r : Reg) : Exec Unit := do
  let a ← readReg w .eax
  let b ← readReg w r
  writeReg w .eax b
  writeReg w r a

/-- LEA (45_data_movement R404). -/
def loadAddress (w : Size) (r : Reg) (m : MemOp) : Exec Unit := do
  let s ← get
  writeReg w r ((effectiveOffset s m).setWidth w.bits)

/-- MOVZX from a source of a size (45_data_movement R405). -/
def moveZero (src w : Size) (r : Reg) (rm : RM) : Exec Unit := do
  let v ← readRM src rm
  writeReg w r (v.setWidth w.bits)

/-- MOVSX from a source of a size (45_data_movement R406). -/
def moveSign (src w : Size) (r : Reg) (rm : RM) : Exec Unit := do
  let v ← readRM src rm
  writeReg w r (v.signExtend w.bits)

/-- CBW and CWDE (45_data_movement R407). -/
def convertAcc (w : Size) : Exec Unit := do
  let s ← get
  if w = .b32 then writeReg .b32 .eax ((s.view .b16 .eax).signExtend 32)
  else writeReg .b16 .eax ((s.view .b8 .eax).signExtend 16)

/-- CWD and CDQ (45_data_movement R408). -/
def extendAcc (w : Size) : Exec Unit := do
  let s ← get
  writeReg w .edx (if (s.view w .eax).msb then BitVec.allOnes w.bits else 0)

/-- The table offset of XLAT (45_data_movement R409). -/
def xlatOffset (s : State) : Word :=
  (s.view s.ctx.asz .ebx + (s.view .b8 .eax).setWidth s.ctx.asz.bits).setWidth 32

/-- XLAT (45_data_movement R409). -/
def translateAcc : Exec Unit := do
  let s ← get
  let v ← segRead (segmentOr s.ctx .ds) (xlatOffset s) 1
  writeReg .b8 .eax (BitVec.ofNat 8 v)

/-- LAHF (45_data_movement R410). -/
def loadAh : Exec Unit := do
  let s ← get
  writeReg .b8 .esp (s.eflags.extractLsb' 0 8)

/-- SAHF (45_data_movement R411). -/
def storeAh : Exec Unit := do
  let s ← get
  modifyFlags fun old => sahfFlags old (s.view .b8 .esp)

/-- XCHG rm8, r8 (86) (45_data_movement R403). -/
def execXchgRm8R8 (rm : RM) (r : Reg) (s : State) : Step :=
  seqInstr (exchangeRM .b8 rm r) s

/-- XCHG rmv, rv (87) (45_data_movement R403). -/
def execXchgRmvRv (rm : RM) (r : Reg) (s : State) : Step :=
  seqInstr (exchangeRM s.ctx.osz rm r) s

/-- MOV rm8, r8 (88) (45_data_movement R400). -/
def execMovRm8R8 (rm : RM) (r : Reg) (s : State) : Step :=
  seqInstr (moveToRM .b8 rm r) s

/-- MOV rmv, rv (89) (45_data_movement R400). -/
def execMovRmvRv (rm : RM) (r : Reg) (s : State) : Step :=
  seqInstr (moveToRM s.ctx.osz rm r) s

/-- MOV r8, rm8 (8A) (45_data_movement R400). -/
def execMovR8Rm8 (r : Reg) (rm : RM) (s : State) : Step :=
  seqInstr (moveToReg .b8 r rm) s

/-- MOV rv, rmv (8B) (45_data_movement R400). -/
def execMovRvRmv (r : Reg) (rm : RM) (s : State) : Step :=
  seqInstr (moveToReg s.ctx.osz r rm) s

/-- LEA rv, m (8D) (45_data_movement R404). -/
def execLeaRvM (r : Reg) (m : MemOp) (s : State) : Step :=
  seqInstr (loadAddress s.ctx.osz r m) s

/-- NOP (90) (45_data_movement R412). -/
def execNop (s : State) : Step :=
  seqInstr (pure ()) s

/-- XCHG eAX, rv (91) (45_data_movement R403). -/
def execXchgEaxEcx (s : State) : Step :=
  seqInstr (exchangeAcc s.ctx.osz .ecx) s

/-- XCHG eAX, rv (92) (45_data_movement R403). -/
def execXchgEaxEdx (s : State) : Step :=
  seqInstr (exchangeAcc s.ctx.osz .edx) s

/-- XCHG eAX, rv (93) (45_data_movement R403). -/
def execXchgEaxEbx (s : State) : Step :=
  seqInstr (exchangeAcc s.ctx.osz .ebx) s

/-- XCHG eAX, rv (94) (45_data_movement R403). -/
def execXchgEaxEsp (s : State) : Step :=
  seqInstr (exchangeAcc s.ctx.osz .esp) s

/-- XCHG eAX, rv (95) (45_data_movement R403). -/
def execXchgEaxEbp (s : State) : Step :=
  seqInstr (exchangeAcc s.ctx.osz .ebp) s

/-- XCHG eAX, rv (96) (45_data_movement R403). -/
def execXchgEaxEsi (s : State) : Step :=
  seqInstr (exchangeAcc s.ctx.osz .esi) s

/-- XCHG eAX, rv (97) (45_data_movement R403). -/
def execXchgEaxEdi (s : State) : Step :=
  seqInstr (exchangeAcc s.ctx.osz .edi) s

/-- CBW (98) (45_data_movement R407). -/
def execCbw (s : State) : Step :=
  seqInstr (convertAcc s.ctx.osz) s

/-- CWD (99) (45_data_movement R408). -/
def execCwd (s : State) : Step :=
  seqInstr (extendAcc s.ctx.osz) s

/-- SAHF (9E) (45_data_movement R411). -/
def execSahf (s : State) : Step :=
  seqInstr storeAh s

/-- LAHF (9F) (45_data_movement R410). -/
def execLahf (s : State) : Step :=
  seqInstr loadAh s

/-- MOV AL, moffs8 (A0) (45_data_movement R401). -/
def execMovAlMoffs8 (off : Word) (s : State) : Step :=
  seqInstr (loadMoffs .b8 off) s

/-- MOV eAX, moffsv (A1) (45_data_movement R401). -/
def execMovEaxMoffsv (off : Word) (s : State) : Step :=
  seqInstr (loadMoffs s.ctx.osz off) s

/-- MOV moffs8, AL (A2) (45_data_movement R401). -/
def execMovMoffs8Al (off : Word) (s : State) : Step :=
  seqInstr (storeMoffs .b8 off) s

/-- MOV moffsv, eAX (A3) (45_data_movement R401). -/
def execMovMoffsvEax (off : Word) (s : State) : Step :=
  seqInstr (storeMoffs s.ctx.osz off) s

/-- MOV r8, ib (B0) (45_data_movement R402). -/
def execMovR8Ib (r : Reg) (ib : Byte) (s : State) : Step :=
  seqInstr (writeReg .b8 r ib) s

/-- MOV rv, iz (B8) (45_data_movement R402). -/
def execMovRvIz (r : Reg) (iz : Word) (s : State) : Step :=
  seqInstr (writeReg s.ctx.osz r (immIz s.ctx.osz iz)) s

/-- MOV rm8, ib (C6 /0) (45_data_movement R402). -/
def execMovRm8Ib (rm : RM) (ib : Byte) (s : State) : Step :=
  seqInstr (writeRM .b8 rm ib) s

/-- MOV rmv, iz (C7 /0) (45_data_movement R402). -/
def execMovRmvIz (rm : RM) (iz : Word) (s : State) : Step :=
  seqInstr (writeRM s.ctx.osz rm (immIz s.ctx.osz iz)) s

/-- XLAT (D7) (45_data_movement R409). -/
def execXlat (s : State) : Step :=
  seqInstr translateAcc s

/-- CMC (F5) (45_data_movement R415). -/
def execCmc (s : State) : Step :=
  seqInstr (modifyFlags fun fl => setFlag .cf (!getFlag .cf fl) fl) s

/-- CLC (F8) (45_data_movement R413). -/
def execClc (s : State) : Step :=
  seqInstr (modifyFlags (setFlag .cf false)) s

/-- STC (F9) (45_data_movement R414). -/
def execStc (s : State) : Step :=
  seqInstr (modifyFlags (setFlag .cf true)) s

/-- CLD (FC) (45_data_movement R416). -/
def execCld (s : State) : Step :=
  seqInstr (modifyFlags (setFlag .df false)) s

/-- STD (FD) (45_data_movement R417). -/
def execStd (s : State) : Step :=
  seqInstr (modifyFlags (setFlag .df true)) s

/-- MOVZX rv, rm8 (0F B6) (45_data_movement R405). -/
def execMovzxRvRm8 (r : Reg) (rm : RM) (s : State) : Step :=
  seqInstr (moveZero .b8 s.ctx.osz r rm) s

/-- MOVZX rv, rm16 (0F B7) (45_data_movement R405): a plain 16-bit move with a 16-bit operand size, where the cell of 30_encoding
R202 says r32 (log 29). -/
def execMovzxRvRm16 (r : Reg) (rm : RM) (s : State) : Step :=
  seqInstr (moveZero .b16 s.ctx.osz r rm) s

/-- MOVSX rv, rm8 (0F BE) (45_data_movement R406). -/
def execMovsxRvRm8 (r : Reg) (rm : RM) (s : State) : Step :=
  seqInstr (moveSign .b8 s.ctx.osz r rm) s

/-- MOVSX rv, rm16 (0F BF) (45_data_movement R406): a plain 16-bit move with a 16-bit operand size, where the cell of 30_encoding
R202 says r32 (log 29). -/
def execMovsxRvRm16 (r : Reg) (rm : RM) (s : State) : Step :=
  seqInstr (moveSign .b16 s.ctx.osz r rm) s

end Sys2Proof.Machine
end

