-- ==== Sys2Proof/Machine/Shift.lean ====
section
/-! DEFINITION. Shifts and rotates (41_logic_shift R266 to R275): the operations once, then one meaning per row. -/

namespace Sys2Proof.Machine

/-- The count in CL (41_logic_shift R266). -/
def State.countCl (s : State) : Nat :=
  (s.view .b8 .ecx).toNat

/-- A shift or rotate by a count, masked to five bits; a zero count reads and writes nothing (41_logic_shift R266). -/
def shiftRM (op : ShiftOp) (w : Size) (rm : RM) (count : Nat) : Exec Unit := do
  let s ← get
  let a ← readLoc w (locate s rm)
  if count % 32 = 0 then pure ()
  else do
    let u ← draw
    modifyFlags (shiftFlags op u a (count % 32))
    writeLoc w (locate s rm) (shiftResult op a (count % 32) (s.flag .cf))

/-- SHLD or SHRD by a count (41_logic_shift R274, R275); a count above the width leaves destination and flags undefined, a
zero count reads the destination and writes nothing (log 25). -/
def doubleShiftRM (left : Bool) (w : Size) (rm : RM) (r : Reg) (count : Nat) : Exec Unit := do
  let s ← get
  let a ← readLoc w (locate s rm)
  let b ← readReg w r
  if count % 32 = 0 then pure ()
  else if w.bits < count % 32 then do
    let v ← draw
    let u ← draw
    modifyFlags (undefinedFlags u)
    writeLoc w (locate s rm) (v.setWidth w.bits)
  else do
    let u ← draw
    modifyFlags (doubleShiftFlags left u a b (count % 32))
    writeLoc w (locate s rm) (doubleShiftResult left a b (count % 32))

/-- ROL rm8, ib (C0 /0) (41_logic_shift R267). -/
def execRolRm8Ib (rm : RM) (ib : Byte) (s : State) : Step :=
  seqInstr (shiftRM .rol .b8 rm ib.toNat) s

/-- ROR rm8, ib (C0 /1) (41_logic_shift R268). -/
def execRorRm8Ib (rm : RM) (ib : Byte) (s : State) : Step :=
  seqInstr (shiftRM .ror .b8 rm ib.toNat) s

/-- RCL rm8, ib (C0 /2) (41_logic_shift R269). -/
def execRclRm8Ib (rm : RM) (ib : Byte) (s : State) : Step :=
  seqInstr (shiftRM .rcl .b8 rm ib.toNat) s

/-- RCR rm8, ib (C0 /3) (41_logic_shift R270). -/
def execRcrRm8Ib (rm : RM) (ib : Byte) (s : State) : Step :=
  seqInstr (shiftRM .rcr .b8 rm ib.toNat) s

/-- SHL rm8, ib (C0 /4) (41_logic_shift R271). -/
def execShlRm8Ib (rm : RM) (ib : Byte) (s : State) : Step :=
  seqInstr (shiftRM .shl .b8 rm ib.toNat) s

/-- SHR rm8, ib (C0 /5) (41_logic_shift R272). -/
def execShrRm8Ib (rm : RM) (ib : Byte) (s : State) : Step :=
  seqInstr (shiftRM .shr .b8 rm ib.toNat) s

/-- SAR rm8, ib (C0 /7) (41_logic_shift R273). -/
def execSarRm8Ib (rm : RM) (ib : Byte) (s : State) : Step :=
  seqInstr (shiftRM .sar .b8 rm ib.toNat) s

/-- ROL rmv, ib (C1 /0) (41_logic_shift R267). -/
def execRolRmvIb (rm : RM) (ib : Byte) (s : State) : Step :=
  seqInstr (shiftRM .rol s.ctx.osz rm ib.toNat) s

/-- ROR rmv, ib (C1 /1) (41_logic_shift R268). -/
def execRorRmvIb (rm : RM) (ib : Byte) (s : State) : Step :=
  seqInstr (shiftRM .ror s.ctx.osz rm ib.toNat) s

/-- RCL rmv, ib (C1 /2) (41_logic_shift R269). -/
def execRclRmvIb (rm : RM) (ib : Byte) (s : State) : Step :=
  seqInstr (shiftRM .rcl s.ctx.osz rm ib.toNat) s

/-- RCR rmv, ib (C1 /3) (41_logic_shift R270). -/
def execRcrRmvIb (rm : RM) (ib : Byte) (s : State) : Step :=
  seqInstr (shiftRM .rcr s.ctx.osz rm ib.toNat) s

/-- SHL rmv, ib (C1 /4) (41_logic_shift R271). -/
def execShlRmvIb (rm : RM) (ib : Byte) (s : State) : Step :=
  seqInstr (shiftRM .shl s.ctx.osz rm ib.toNat) s

/-- SHR rmv, ib (C1 /5) (41_logic_shift R272). -/
def execShrRmvIb (rm : RM) (ib : Byte) (s : State) : Step :=
  seqInstr (shiftRM .shr s.ctx.osz rm ib.toNat) s

/-- SAR rmv, ib (C1 /7) (41_logic_shift R273). -/
def execSarRmvIb (rm : RM) (ib : Byte) (s : State) : Step :=
  seqInstr (shiftRM .sar s.ctx.osz rm ib.toNat) s

/-- ROL rm8, 1 (D0 /0) (41_logic_shift R267). -/
def execRolRm8One (rm : RM) (s : State) : Step :=
  seqInstr (shiftRM .rol .b8 rm 1) s

/-- ROR rm8, 1 (D0 /1) (41_logic_shift R268). -/
def execRorRm8One (rm : RM) (s : State) : Step :=
  seqInstr (shiftRM .ror .b8 rm 1) s

/-- RCL rm8, 1 (D0 /2) (41_logic_shift R269). -/
def execRclRm8One (rm : RM) (s : State) : Step :=
  seqInstr (shiftRM .rcl .b8 rm 1) s

/-- RCR rm8, 1 (D0 /3) (41_logic_shift R270). -/
def execRcrRm8One (rm : RM) (s : State) : Step :=
  seqInstr (shiftRM .rcr .b8 rm 1) s

/-- SHL rm8, 1 (D0 /4) (41_logic_shift R271). -/
def execShlRm8One (rm : RM) (s : State) : Step :=
  seqInstr (shiftRM .shl .b8 rm 1) s

/-- SHR rm8, 1 (D0 /5) (41_logic_shift R272). -/
def execShrRm8One (rm : RM) (s : State) : Step :=
  seqInstr (shiftRM .shr .b8 rm 1) s

/-- SAR rm8, 1 (D0 /7) (41_logic_shift R273). -/
def execSarRm8One (rm : RM) (s : State) : Step :=
  seqInstr (shiftRM .sar .b8 rm 1) s

/-- ROL rmv, 1 (D1 /0) (41_logic_shift R267). -/
def execRolRmvOne (rm : RM) (s : State) : Step :=
  seqInstr (shiftRM .rol s.ctx.osz rm 1) s

/-- ROR rmv, 1 (D1 /1) (41_logic_shift R268). -/
def execRorRmvOne (rm : RM) (s : State) : Step :=
  seqInstr (shiftRM .ror s.ctx.osz rm 1) s

/-- RCL rmv, 1 (D1 /2) (41_logic_shift R269). -/
def execRclRmvOne (rm : RM) (s : State) : Step :=
  seqInstr (shiftRM .rcl s.ctx.osz rm 1) s

/-- RCR rmv, 1 (D1 /3) (41_logic_shift R270). -/
def execRcrRmvOne (rm : RM) (s : State) : Step :=
  seqInstr (shiftRM .rcr s.ctx.osz rm 1) s

/-- SHL rmv, 1 (D1 /4) (41_logic_shift R271). -/
def execShlRmvOne (rm : RM) (s : State) : Step :=
  seqInstr (shiftRM .shl s.ctx.osz rm 1) s

/-- SHR rmv, 1 (D1 /5) (41_logic_shift R272). -/
def execShrRmvOne (rm : RM) (s : State) : Step :=
  seqInstr (shiftRM .shr s.ctx.osz rm 1) s

/-- SAR rmv, 1 (D1 /7) (41_logic_shift R273). -/
def execSarRmvOne (rm : RM) (s : State) : Step :=
  seqInstr (shiftRM .sar s.ctx.osz rm 1) s

/-- ROL rm8, CL (D2 /0) (41_logic_shift R267). -/
def execRolRm8Cl (rm : RM) (s : State) : Step :=
  seqInstr (shiftRM .rol .b8 rm s.countCl) s

/-- ROR rm8, CL (D2 /1) (41_logic_shift R268). -/
def execRorRm8Cl (rm : RM) (s : State) : Step :=
  seqInstr (shiftRM .ror .b8 rm s.countCl) s

/-- RCL rm8, CL (D2 /2) (41_logic_shift R269). -/
def execRclRm8Cl (rm : RM) (s : State) : Step :=
  seqInstr (shiftRM .rcl .b8 rm s.countCl) s

/-- RCR rm8, CL (D2 /3) (41_logic_shift R270). -/
def execRcrRm8Cl (rm : RM) (s : State) : Step :=
  seqInstr (shiftRM .rcr .b8 rm s.countCl) s

/-- SHL rm8, CL (D2 /4) (41_logic_shift R271). -/
def execShlRm8Cl (rm : RM) (s : State) : Step :=
  seqInstr (shiftRM .shl .b8 rm s.countCl) s

/-- SHR rm8, CL (D2 /5) (41_logic_shift R272). -/
def execShrRm8Cl (rm : RM) (s : State) : Step :=
  seqInstr (shiftRM .shr .b8 rm s.countCl) s

/-- SAR rm8, CL (D2 /7) (41_logic_shift R273). -/
def execSarRm8Cl (rm : RM) (s : State) : Step :=
  seqInstr (shiftRM .sar .b8 rm s.countCl) s

/-- ROL rmv, CL (D3 /0) (41_logic_shift R267). -/
def execRolRmvCl (rm : RM) (s : State) : Step :=
  seqInstr (shiftRM .rol s.ctx.osz rm s.countCl) s

/-- ROR rmv, CL (D3 /1) (41_logic_shift R268). -/
def execRorRmvCl (rm : RM) (s : State) : Step :=
  seqInstr (shiftRM .ror s.ctx.osz rm s.countCl) s

/-- RCL rmv, CL (D3 /2) (41_logic_shift R269). -/
def execRclRmvCl (rm : RM) (s : State) : Step :=
  seqInstr (shiftRM .rcl s.ctx.osz rm s.countCl) s

/-- RCR rmv, CL (D3 /3) (41_logic_shift R270). -/
def execRcrRmvCl (rm : RM) (s : State) : Step :=
  seqInstr (shiftRM .rcr s.ctx.osz rm s.countCl) s

/-- SHL rmv, CL (D3 /4) (41_logic_shift R271). -/
def execShlRmvCl (rm : RM) (s : State) : Step :=
  seqInstr (shiftRM .shl s.ctx.osz rm s.countCl) s

/-- SHR rmv, CL (D3 /5) (41_logic_shift R272). -/
def execShrRmvCl (rm : RM) (s : State) : Step :=
  seqInstr (shiftRM .shr s.ctx.osz rm s.countCl) s

/-- SAR rmv, CL (D3 /7) (41_logic_shift R273). -/
def execSarRmvCl (rm : RM) (s : State) : Step :=
  seqInstr (shiftRM .sar s.ctx.osz rm s.countCl) s

/-- SHLD rmv, rv, ib (0F A4) (41_logic_shift R274). -/
def execShldRmvRvIb (rm : RM) (r : Reg) (ib : Byte) (s : State) : Step :=
  seqInstr (doubleShiftRM true s.ctx.osz rm r ib.toNat) s

/-- SHLD rmv, rv, CL (0F A5) (41_logic_shift R274). -/
def execShldRmvRvCl (rm : RM) (r : Reg) (s : State) : Step :=
  seqInstr (doubleShiftRM true s.ctx.osz rm r s.countCl) s

/-- SHRD rmv, rv, ib (0F AC) (41_logic_shift R275). -/
def execShrdRmvRvIb (rm : RM) (r : Reg) (ib : Byte) (s : State) : Step :=
  seqInstr (doubleShiftRM false s.ctx.osz rm r ib.toNat) s

/-- SHRD rmv, rv, CL (0F AD) (41_logic_shift R275). -/
def execShrdRmvRvCl (rm : RM) (r : Reg) (s : State) : Step :=
  seqInstr (doubleShiftRM false s.ctx.osz rm r s.countCl) s

end Sys2Proof.Machine
end

