-- ==== Sys2Proof/Machine/Stack.lean ====
section
/-! DEFINITION. The stack family (43_stack R333 to R347): the operations once, then one meaning per row. -/

namespace Sys2Proof.Machine

/-- PUSH of a register, read before the pointer moves (43_stack R333). -/
def pushReg (w : Size) (r : Reg) : Exec Unit := do
  let v ← readReg w r
  push w.bytes v.toNat

/-- PUSH of an r/m operand (43_stack R335). -/
def pushRM (w : Size) (rm : RM) : Exec Unit := do
  let v ← readRM w rm
  push w.bytes v.toNat

/-- PUSH of a segment register (43_stack R336). -/
def pushSReg (w : Size) (r : SReg) : Exec Unit := do
  let s ← get
  let v ← selImage w.bytes (s.seg r).sel
  push w.bytes v

/-- POP of a register (43_stack R337). -/
def popReg (w : Size) (r : Reg) : Exec Unit := do
  let v ← pop w.bytes
  writeReg w r (BitVec.ofNat w.bits v)

/-- POP of an r/m operand: EA() is computed after the pop (43_stack R338). -/
def popRM (w : Size) (rm : RM) : Exec Unit := do
  let v ← pop w.bytes
  writeRM w rm (BitVec.ofNat w.bits v)

/-- POP of a segment register (43_stack R339). -/
def popSReg (w : Size) (r : SReg) : Exec Unit := do
  let v ← pop w.bytes
  loadSReg r (BitVec.ofNat 16 v)

/-- Push values in order. -/
def pushList (n : Nat) : List Nat → Exec Unit
  | [] => pure ()
  | v :: vs => do
    push n v
    pushList n vs

/-- The eight values PUSHA pushes, in order (43_stack R340): the fifth is SP before the instruction. -/
def pushaValues (w : Size) (s : State) : List Nat :=
  [(s.view w .eax).toNat, (s.view w .ecx).toNat, (s.view w .edx).toNat, (s.view w .ebx).toNat,
    (s.view w .esp).toNat, (s.view w .ebp).toNat, (s.view w .esi).toNat, (s.view w .edi).toNat]

/-- PUSHA (43_stack R340). -/
def pushAll (w : Size) : Exec Unit := do
  let s ← get
  pushList w.bytes (pushaValues w s)

/-- POPA: the fourth value is discarded (43_stack R341). -/
def popAll (w : Size) : Exec Unit := do
  popReg w .edi
  popReg w .esi
  popReg w .ebp
  let _ ← pop w.bytes
  popReg w .ebx
  popReg w .edx
  popReg w .ecx
  popReg w .eax

/-- PUSHF (43_stack R345). -/
def pushFlags (w : Size) : Exec Unit := do
  let s ← get
  push w.bytes s.eflags.toNat

/-- POPF: the bits the privilege level does not allow keep their values (43_stack R346). -/
def popFlags (w : Size) : Exec Unit := do
  let v ← pop w.bytes
  let s ← get
  modifyFlags fun old => maskedFlags (popMask s.priv0 s.ioPriv) old (BitVec.ofNat 32 v)

/-- LEAVE (43_stack R347). -/
def leaveFrame (w : Size) : Exec Unit := do
  modify fun s => s.setStackPointer s.regs.ebp
  popReg w .ebp

/-- PUSH ES (06) (43_stack R336). -/
def execPushEs (s : State) : Step :=
  seqInstr (pushSReg s.ctx.osz .es) s

/-- POP ES (07) (43_stack R339). -/
def execPopEs (s : State) : Step :=
  seqInstr (popSReg s.ctx.osz .es) s

/-- PUSH CS (0E) (43_stack R336). -/
def execPushCs (s : State) : Step :=
  seqInstr (pushSReg s.ctx.osz .cs) s

/-- PUSH SS (16) (43_stack R336). -/
def execPushSs (s : State) : Step :=
  seqInstr (pushSReg s.ctx.osz .ss) s

/-- POP SS (17) (43_stack R339). -/
def execPopSs (s : State) : Step :=
  seqInstr (popSReg s.ctx.osz .ss) s

/-- PUSH DS (1E) (43_stack R336). -/
def execPushDs (s : State) : Step :=
  seqInstr (pushSReg s.ctx.osz .ds) s

/-- POP DS (1F) (43_stack R339). -/
def execPopDs (s : State) : Step :=
  seqInstr (popSReg s.ctx.osz .ds) s

/-- PUSH FS (0F A0) (43_stack R336). -/
def execPushFs (s : State) : Step :=
  seqInstr (pushSReg s.ctx.osz .fs) s

/-- POP FS (0F A1) (43_stack R339). -/
def execPopFs (s : State) : Step :=
  seqInstr (popSReg s.ctx.osz .fs) s

/-- PUSH GS (0F A8) (43_stack R336). -/
def execPushGs (s : State) : Step :=
  seqInstr (pushSReg s.ctx.osz .gs) s

/-- POP GS (0F A9) (43_stack R339). -/
def execPopGs (s : State) : Step :=
  seqInstr (popSReg s.ctx.osz .gs) s

/-- PUSH rv (50) (43_stack R333). -/
def execPushRv (r : Reg) (s : State) : Step :=
  seqInstr (pushReg s.ctx.osz r) s

/-- POP rv (58) (43_stack R337). -/
def execPopRv (r : Reg) (s : State) : Step :=
  seqInstr (popReg s.ctx.osz r) s

/-- PUSHA (60) (43_stack R340). -/
def execPusha (s : State) : Step :=
  seqInstr (pushAll s.ctx.osz) s

/-- POPA (61) (43_stack R341). -/
def execPopa (s : State) : Step :=
  seqInstr (popAll s.ctx.osz) s

/-- PUSH iz (68) (43_stack R334). -/
def execPushIz (iz : Word) (s : State) : Step :=
  seqInstr (push s.ctx.osz.bytes (immIz s.ctx.osz iz).toNat) s

/-- PUSH ibs (6A) (43_stack R334). -/
def execPushIbs (ib : Byte) (s : State) : Step :=
  seqInstr (push s.ctx.osz.bytes (immIbs s.ctx.osz ib).toNat) s

/-- POP rmv (8F /0) (43_stack R338). -/
def execPopRmv (rm : RM) (s : State) : Step :=
  seqInstr (popRM s.ctx.osz rm) s

/-- PUSHF (9C) (43_stack R345). -/
def execPushf (s : State) : Step :=
  seqInstr (pushFlags s.ctx.osz) s

/-- POPF (9D) (43_stack R346). -/
def execPopf (s : State) : Step :=
  seqInstr (popFlags s.ctx.osz) s

/-- LEAVE (C9) (43_stack R347). -/
def execLeave (s : State) : Step :=
  seqInstr (leaveFrame s.ctx.osz) s

/-- PUSH rmv (FF /6) (43_stack R335). -/
def execPushRmv (rm : RM) (s : State) : Step :=
  seqInstr (pushRM s.ctx.osz rm) s

end Sys2Proof.Machine
end

