-- ==== Sys2Proof/Machine/StringIo.lean ====
section
/-! DEFINITION. String instructions and port I/O (42_string_io R302 to R308, R320, R321): the bodies once, then one
meaning per row. -/

namespace Sys2Proof.Machine

/-- MOVS (42_string_io R302). -/
def movsBody (w : Size) : Exec Unit := do
  let v ← readSource w
  writeDest w v
  advanceIndex w .esi
  advanceIndex w .edi

/-- CMPS: source minus destination (42_string_io R303). -/
def cmpsBody (w : Size) : Exec Unit := do
  let a ← readSource w
  let b ← readDest w
  let _ ← subOp w a b
  advanceIndex w .esi
  advanceIndex w .edi

/-- STOS (42_string_io R304). -/
def stosBody (w : Size) : Exec Unit := do
  let v ← readReg w .eax
  writeDest w v
  advanceIndex w .edi

/-- LODS (42_string_io R305). -/
def lodsBody (w : Size) : Exec Unit := do
  let v ← readSource w
  writeReg w .eax v
  advanceIndex w .esi

/-- SCAS: accumulator minus memory (42_string_io R306). -/
def scasBody (w : Size) : Exec Unit := do
  let a ← readReg w .eax
  let b ← readDest w
  let _ ← subOp w a b
  advanceIndex w .edi

/-- INS: the destination is checked before the port is touched (42_string_io R307). -/
def insBody (w : Size) : Exec Unit := do
  ioCheck
  let s ← get
  checkSegWrite .es (indexValue s .edi) w.bytes
  let v ← portIn (s.view .b16 .edx) w
  writeDest w (v.setWidth w.bits)
  advanceIndex w .edi

/-- OUTS (42_string_io R308). -/
def outsBody (w : Size) : Exec Unit := do
  ioCheck
  let v ← readSource w
  let s ← get
  portOut (s.view .b16 .edx) w (v.setWidth 32)
  advanceIndex w .esi

/-- IN (42_string_io R320). -/
def inPort (w : Size) (port : Half) : Exec Unit := do
  ioCheck
  let v ← portIn port w
  writeReg w .eax (v.setWidth w.bits)

/-- OUT (42_string_io R321). -/
def outPort (w : Size) (port : Half) : Exec Unit := do
  ioCheck
  let v ← readReg w .eax
  portOut port w (v.setWidth 32)

/-- INS m8, DX (6C) (42_string_io R307). -/
def execInsB (s : State) : Step :=
  runInstr (stringStep (insBody .b8) false) s

/-- INS mv, DX (6D) (42_string_io R307). -/
def execInsV (s : State) : Step :=
  runInstr (stringStep (insBody s.ctx.osz) false) s

/-- OUTS DX, m8 (6E) (42_string_io R308). -/
def execOutsB (s : State) : Step :=
  runInstr (stringStep (outsBody .b8) false) s

/-- OUTS DX, mv (6F) (42_string_io R308). -/
def execOutsV (s : State) : Step :=
  runInstr (stringStep (outsBody s.ctx.osz) false) s

/-- MOVS (A4) (42_string_io R302). -/
def execMovsB (s : State) : Step :=
  runInstr (stringStep (movsBody .b8) false) s

/-- MOVS (A5) (42_string_io R302). -/
def execMovsV (s : State) : Step :=
  runInstr (stringStep (movsBody s.ctx.osz) false) s

/-- CMPS (A6) (42_string_io R303). -/
def execCmpsB (s : State) : Step :=
  runInstr (stringStep (cmpsBody .b8) true) s

/-- CMPS (A7) (42_string_io R303). -/
def execCmpsV (s : State) : Step :=
  runInstr (stringStep (cmpsBody s.ctx.osz) true) s

/-- STOS (AA) (42_string_io R304). -/
def execStosB (s : State) : Step :=
  runInstr (stringStep (stosBody .b8) false) s

/-- STOS (AB) (42_string_io R304). -/
def execStosV (s : State) : Step :=
  runInstr (stringStep (stosBody s.ctx.osz) false) s

/-- LODS (AC) (42_string_io R305). -/
def execLodsB (s : State) : Step :=
  runInstr (stringStep (lodsBody .b8) false) s

/-- LODS (AD) (42_string_io R305). -/
def execLodsV (s : State) : Step :=
  runInstr (stringStep (lodsBody s.ctx.osz) false) s

/-- SCAS (AE) (42_string_io R306). -/
def execScasB (s : State) : Step :=
  runInstr (stringStep (scasBody .b8) true) s

/-- SCAS (AF) (42_string_io R306). -/
def execScasV (s : State) : Step :=
  runInstr (stringStep (scasBody s.ctx.osz) true) s

/-- IN AL, ib (E4) (42_string_io R320). -/
def execInAlIb (ib : Byte) (s : State) : Step :=
  seqInstr (inPort .b8 (ib.setWidth 16)) s

/-- IN eAX, ib (E5) (42_string_io R320). -/
def execInEaxIb (ib : Byte) (s : State) : Step :=
  seqInstr (inPort s.ctx.osz (ib.setWidth 16)) s

/-- OUT ib, AL (E6) (42_string_io R321). -/
def execOutIbAl (ib : Byte) (s : State) : Step :=
  seqInstr (outPort .b8 (ib.setWidth 16)) s

/-- OUT ib, eAX (E7) (42_string_io R321). -/
def execOutIbEax (ib : Byte) (s : State) : Step :=
  seqInstr (outPort s.ctx.osz (ib.setWidth 16)) s

/-- IN AL, DX (EC) (42_string_io R320). -/
def execInAlDx (s : State) : Step :=
  seqInstr (inPort .b8 (s.view .b16 .edx)) s

/-- IN eAX, DX (ED) (42_string_io R320). -/
def execInEaxDx (s : State) : Step :=
  seqInstr (inPort s.ctx.osz (s.view .b16 .edx)) s

/-- OUT DX, AL (EE) (42_string_io R321). -/
def execOutDxAl (s : State) : Step :=
  seqInstr (outPort .b8 (s.view .b16 .edx)) s

/-- OUT DX, eAX (EF) (42_string_io R321). -/
def execOutDxEax (s : State) : Step :=
  seqInstr (outPort s.ctx.osz (s.view .b16 .edx)) s

end Sys2Proof.Machine
end

