-- ==== Sys2Proof/Machine/System.lean ====
section
/-! DEFINITION. System, segment-load and protected-mode instructions (44_protected_mode R360 to R392): the operations
once, then one meaning per row. -/

namespace Sys2Proof.Machine

/-- The 48-bit pseudo-descriptor of LGDT and LIDT: limit word, then base dword, of 24 bits with a 16-bit operand size
(44_protected_mode R361). -/
def readPseudo (osz : Size) (m : MemOp) : Exec TableReg := do
  let s ← get
  let p ← segRead (memLoc s m).1 (memLoc s m).2 6
  let base := BitVec.ofNat 32 (p / 65536)
  pure { base := if osz = .b32 then base else base &&& 0x00FFFFFF, limit := BitVec.ofNat 16 p }

/-- LGDT (44_protected_mode R361). -/
def loadGdt (osz : Size) (m : MemOp) : Exec Unit := do
  privCheck
  let t ← readPseudo osz m
  modify fun s => { s with gdtr := t }

/-- LIDT (44_protected_mode R362). -/
def loadIdt (osz : Size) (m : MemOp) : Exec Unit := do
  privCheck
  let t ← readPseudo osz m
  modify fun s => { s with idtr := t }

/-- The sixth byte that SGDT and SIDT store: undefined(8) with a 16-bit operand size (44_protected_mode R363). -/
def sixthByte (osz : Size) (t : TableReg) : Exec Byte :=
  if osz = .b32 then pure (t.base.extractLsb' 24 8)
  else do
    let v ← draw
    pure (v.extractLsb' 24 8)

/-- SGDT and SIDT (44_protected_mode R363, R364). -/
def storeTable (osz : Size) (m : MemOp) (t : TableReg) : Exec Unit := do
  let s ← get
  let u ← sixthByte osz t
  segWrite (memLoc s m).1 (memLoc s m).2 6 (u ++ t.base.extractLsb' 0 24 ++ t.limit).toNat

/-- A row that needs PE = 1 is refused in real mode (30_encoding R211). -/
def protectedOnly : Exec Unit := do
  let s ← get
  check s.pe (refuse (.encoding .realModeRow))

/-- LLDT after its privilege check (44_protected_mode R365). -/
def loadLdtSel (sel : Half) : Exec Unit :=
  if isNull sel then modify fun s => { s with ldtr := { sel := sel, base := 0, limit := 0, valid := false } }
  else do
    check (!sel.getLsbD 2) (protection (selError sel false))
    let d ← readDescriptor sel 13 false
    check (!d.s && d.type == 2) (protection (selError sel false))
    check d.present (notPresent (selError sel false))
    modify fun s => { s with ldtr := { sel := sel, base := d.base, limit := d.byteLimit, valid := true } }

/-- LLDT (44_protected_mode R365). -/
def loadLdt (rm : RM) : Exec Unit := do
  protectedOnly
  privCheck
  let sel ← readRM .b16 rm
  loadLdtSel sel

/-- LTR after its privilege check (44_protected_mode R366). -/
def loadTaskSel (sel : Half) : Exec Unit := do
  check (!isNull sel) (protection 0)
  check (!sel.getLsbD 2) (protection (selError sel false))
  let d ← readDescriptor sel 13 false
  check (!d.s && (d.type == 1 || d.type == 9)) (protection (selError sel false))
  check d.present (notPresent (selError sel false))
  modify fun s =>
    { s with tr := { sel := sel, base := d.base, limit := d.byteLimit, valid := true, is32 := d.type == 9 } }
  markDescriptor sel d 2

/-- LTR (44_protected_mode R366). -/
def loadTask (rm : RM) : Exec Unit := do
  protectedOnly
  privCheck
  let sel ← readRM .b16 rm
  loadTaskSel sel

/-- Store a 16-bit system value: 16 bits to memory or to a 16-bit register; the upper half of a 32-bit register is
undefined(16) (44_protected_mode R367, R372, R381). -/
def storeHalf (osz : Size) (rm : RM) (v : Half) : Exec Unit := do
  let s ← get
  match locate s rm with
  | .mem g off => segWrite g off 2 v.toNat
  | .reg r =>
    if osz = .b32 then do
      let u ← draw
      writeReg .b32 r (u.extractLsb' 16 16 ++ v)
    else writeReg .b16 r v

/-- SLDT and STR: refused in real mode (44_protected_mode R367, R368). -/
def storeProtected (osz : Size) (rm : RM) (v : Half) : Exec Unit := do
  protectedOnly
  storeHalf osz rm v

/-- The six status flags become undefined after a move to or from a control or debug register (44_protected_mode
R370). -/
def clobberFlags : Exec Unit := do
  let u ← draw
  modifyFlags (undefinedFlags u)

/-- MOV CRn, r32 (44_protected_mode R370). -/
def moveToControl (k : CReg) (r : Reg) : Exec Unit := do
  privCheck
  modify fun s => s.setCreg k (s.reg r)
  clobberFlags

/-- MOV r32, CRn (44_protected_mode R377). -/
def moveFromControl (r : Reg) (k : CReg) : Exec Unit := do
  privCheck
  modify fun s => s.setReg r (s.creg k)
  clobberFlags

/-- MOV DRn, r32 (44_protected_mode R371). -/
def moveToDebug (k : DReg) (r : Reg) : Exec Unit := do
  privCheck
  modify fun s => { s with dr := s.dr.set k (s.reg r) }
  clobberFlags

/-- MOV r32, DRn (44_protected_mode R378). -/
def moveFromDebug (r : Reg) (k : DReg) : Exec Unit := do
  privCheck
  modify fun s => s.setReg r (s.dr.get k)
  clobberFlags

/-- CR0 after LMSW: bits 3 to 1 are replaced, bit 0 can only be set (44_protected_mode R373). -/
def lmswValue (cr0 : Word) (v : Half) : Word :=
  (cr0 &&& ~~~0xE) ||| (v.setWidth 32 &&& 0xF)

/-- LMSW (44_protected_mode R373). -/
def loadMsw (rm : RM) : Exec Unit := do
  privCheck
  let v ← readRM .b16 rm
  modify fun s => { s with cr0 := lmswValue s.cr0 v }

/-- CLTS (44_protected_mode R374). -/
def clearTs : Exec Unit := do
  privCheck
  modify fun s => { s with cr0 := s.cr0 &&& ~~~0x8 }

/-- MOV Sreg, rm16 (44_protected_mode R380). -/
def moveToSeg (r : SReg) (rm : RM) : Exec Unit := do
  let sel ← readRM .b16 rm
  loadSReg r sel

/-- LoadFarPointer(t) (44_protected_mode R382). -/
def loadFarPointer (t : SReg) (osz : Size) (r : Reg) (m : MemOp) : Exec Unit := do
  let s ← get
  let p ← segRead (memLoc s m).1 (memLoc s m).2 (osz.bytes + 2)
  loadSReg t (BitVec.ofNat 16 (p / 2 ^ osz.bits))
  writeReg osz r (BitVec.ofNat osz.bits p)

/-- HLT (44_protected_mode R390). -/
def haltCore : Exec Unit := do
  privCheck
  modify fun s => { s with activity := .halted }

/-- CLI and STI (44_protected_mode R391, R392). -/
def setInterruptFlag (v : Bool) : Exec Unit := do
  let s ← get
  check s.ioPriv (protection 0)
  modifyFlags (setFlag .intf v)

/-- MOV rm16, Sreg (8C) (44_protected_mode R381). -/
def execMovRm16Sreg (rm : RM) (sr : SReg) (s : State) : Step :=
  seqInstr (storeHalf s.ctx.osz rm (s.seg sr).sel) s

/-- MOV Sreg, rm16 (8E) (44_protected_mode R380). -/
def execMovSregRm16 (sr : SReg) (rm : RM) (s : State) : Step :=
  seqInstr (moveToSeg sr rm) s

/-- LES rv, m16:z (C4) (44_protected_mode R383). -/
def execLesRvMem (r : Reg) (m : MemOp) (s : State) : Step :=
  seqInstr (loadFarPointer .es s.ctx.osz r m) s

/-- LDS rv, m16:z (C5) (44_protected_mode R382). -/
def execLdsRvMem (r : Reg) (m : MemOp) (s : State) : Step :=
  seqInstr (loadFarPointer .ds s.ctx.osz r m) s

/-- HLT (F4) (44_protected_mode R390). -/
def execHlt (s : State) : Step :=
  seqInstr haltCore s

/-- CLI (FA) (44_protected_mode R391). -/
def execCli (s : State) : Step :=
  seqInstr (setInterruptFlag false) s

/-- STI (FB) (44_protected_mode R392). -/
def execSti (s : State) : Step :=
  seqInstr (setInterruptFlag true) s

/-- SLDT rm16 (0F 00 /0) (44_protected_mode R367). -/
def execSldtRm16 (rm : RM) (s : State) : Step :=
  seqInstr (storeProtected s.ctx.osz rm s.ldtr.sel) s

/-- STR rm16 (0F 00 /1) (44_protected_mode R368). -/
def execStrRm16 (rm : RM) (s : State) : Step :=
  seqInstr (storeProtected s.ctx.osz rm s.tr.sel) s

/-- LLDT rm16 (0F 00 /2) (44_protected_mode R365). -/
def execLldtRm16 (rm : RM) (s : State) : Step :=
  seqInstr (loadLdt rm) s

/-- LTR rm16 (0F 00 /3) (44_protected_mode R366). -/
def execLtrRm16 (rm : RM) (s : State) : Step :=
  seqInstr (loadTask rm) s

/-- SGDT m (0F 01 /0) (44_protected_mode R363). -/
def execSgdtM (m : MemOp) (s : State) : Step :=
  seqInstr (storeTable s.ctx.osz m s.gdtr) s

/-- SIDT m (0F 01 /1) (44_protected_mode R364). -/
def execSidtM (m : MemOp) (s : State) : Step :=
  seqInstr (storeTable s.ctx.osz m s.idtr) s

/-- LGDT m (0F 01 /2) (44_protected_mode R361). -/
def execLgdtM (m : MemOp) (s : State) : Step :=
  seqInstr (loadGdt s.ctx.osz m) s

/-- LIDT m (0F 01 /3) (44_protected_mode R362). -/
def execLidtM (m : MemOp) (s : State) : Step :=
  seqInstr (loadIdt s.ctx.osz m) s

/-- SMSW rm16 (0F 01 /4) (44_protected_mode R372). -/
def execSmswRm16 (rm : RM) (s : State) : Step :=
  seqInstr (storeHalf s.ctx.osz rm (s.cr0.extractLsb' 0 16)) s

/-- LMSW rm16 (0F 01 /6) (44_protected_mode R373). -/
def execLmswRm16 (rm : RM) (s : State) : Step :=
  seqInstr (loadMsw rm) s

/-- CLTS (0F 06) (44_protected_mode R374). -/
def execClts (s : State) : Step :=
  seqInstr clearTs s

/-- MOV r32, CRn (0F 20) (44_protected_mode R377). -/
def execMovR32Cr (_md : BitVec 2) (r : Reg) (k : CReg) (s : State) : Step :=
  seqInstr (moveFromControl r k) s

/-- MOV r32, DRn (0F 21) (44_protected_mode R378). -/
def execMovR32Dr (_md : BitVec 2) (r : Reg) (k : DReg) (s : State) : Step :=
  seqInstr (moveFromDebug r k) s

/-- MOV CRn, r32 (0F 22) (44_protected_mode R370). -/
def execMovCrR32 (_md : BitVec 2) (k : CReg) (r : Reg) (s : State) : Step :=
  seqInstr (moveToControl k r) s

/-- MOV DRn, r32 (0F 23) (44_protected_mode R371). -/
def execMovDrR32 (_md : BitVec 2) (k : DReg) (r : Reg) (s : State) : Step :=
  seqInstr (moveToDebug k r) s

/-- LSS rv, m16:z (0F B2) (44_protected_mode R384). -/
def execLssRvMem (r : Reg) (m : MemOp) (s : State) : Step :=
  seqInstr (loadFarPointer .ss s.ctx.osz r m) s

/-- LFS rv, m16:z (0F B4) (44_protected_mode R385). -/
def execLfsRvMem (r : Reg) (m : MemOp) (s : State) : Step :=
  seqInstr (loadFarPointer .fs s.ctx.osz r m) s

/-- LGS rv, m16:z (0F B5) (44_protected_mode R386). -/
def execLgsRvMem (r : Reg) (m : MemOp) (s : State) : Step :=
  seqInstr (loadFarPointer .gs s.ctx.osz r m) s

end Sys2Proof.Machine
end

