-- ==== Sys2Proof/Machine/Dispatch.lean ====
section
/-! DEFINITION. The dispatch: one arm per row of the opcode table, each one call of that row's meaning. -/

namespace Sys2Proof.Machine

/-- Run one decoded instruction under the prefix state that the state holds (30_encoding R163). -/
def exec (i : Instr) (s : State) : Host.Outcome State Fault Refusal :=
  match i with
  | .addRm8R8 rm r => Sys2Proof.Machine.execAddRm8R8 rm r s
  | .addRmvRv rm r => Sys2Proof.Machine.execAddRmvRv rm r s
  | .addR8Rm8 r rm => Sys2Proof.Machine.execAddR8Rm8 r rm s
  | .addRvRmv r rm => Sys2Proof.Machine.execAddRvRmv r rm s
  | .addAlIb ib => Sys2Proof.Machine.execAddAlIb ib s
  | .addEaxIz iz => Sys2Proof.Machine.execAddEaxIz iz s
  | .orRm8R8 rm r => Sys2Proof.Machine.execOrRm8R8 rm r s
  | .orRmvRv rm r => Sys2Proof.Machine.execOrRmvRv rm r s
  | .orR8Rm8 r rm => Sys2Proof.Machine.execOrR8Rm8 r rm s
  | .orRvRmv r rm => Sys2Proof.Machine.execOrRvRmv r rm s
  | .orAlIb ib => Sys2Proof.Machine.execOrAlIb ib s
  | .orEaxIz iz => Sys2Proof.Machine.execOrEaxIz iz s
  | .adcRm8R8 rm r => Sys2Proof.Machine.execAdcRm8R8 rm r s
  | .adcRmvRv rm r => Sys2Proof.Machine.execAdcRmvRv rm r s
  | .adcR8Rm8 r rm => Sys2Proof.Machine.execAdcR8Rm8 r rm s
  | .adcRvRmv r rm => Sys2Proof.Machine.execAdcRvRmv r rm s
  | .adcAlIb ib => Sys2Proof.Machine.execAdcAlIb ib s
  | .adcEaxIz iz => Sys2Proof.Machine.execAdcEaxIz iz s
  | .sbbRm8R8 rm r => Sys2Proof.Machine.execSbbRm8R8 rm r s
  | .sbbRmvRv rm r => Sys2Proof.Machine.execSbbRmvRv rm r s
  | .sbbR8Rm8 r rm => Sys2Proof.Machine.execSbbR8Rm8 r rm s
  | .sbbRvRmv r rm => Sys2Proof.Machine.execSbbRvRmv r rm s
  | .sbbAlIb ib => Sys2Proof.Machine.execSbbAlIb ib s
  | .sbbEaxIz iz => Sys2Proof.Machine.execSbbEaxIz iz s
  | .andRm8R8 rm r => Sys2Proof.Machine.execAndRm8R8 rm r s
  | .andRmvRv rm r => Sys2Proof.Machine.execAndRmvRv rm r s
  | .andR8Rm8 r rm => Sys2Proof.Machine.execAndR8Rm8 r rm s
  | .andRvRmv r rm => Sys2Proof.Machine.execAndRvRmv r rm s
  | .andAlIb ib => Sys2Proof.Machine.execAndAlIb ib s
  | .andEaxIz iz => Sys2Proof.Machine.execAndEaxIz iz s
  | .subRm8R8 rm r => Sys2Proof.Machine.execSubRm8R8 rm r s
  | .subRmvRv rm r => Sys2Proof.Machine.execSubRmvRv rm r s
  | .subR8Rm8 r rm => Sys2Proof.Machine.execSubR8Rm8 r rm s
  | .subRvRmv r rm => Sys2Proof.Machine.execSubRvRmv r rm s
  | .subAlIb ib => Sys2Proof.Machine.execSubAlIb ib s
  | .subEaxIz iz => Sys2Proof.Machine.execSubEaxIz iz s
  | .xorRm8R8 rm r => Sys2Proof.Machine.execXorRm8R8 rm r s
  | .xorRmvRv rm r => Sys2Proof.Machine.execXorRmvRv rm r s
  | .xorR8Rm8 r rm => Sys2Proof.Machine.execXorR8Rm8 r rm s
  | .xorRvRmv r rm => Sys2Proof.Machine.execXorRvRmv r rm s
  | .xorAlIb ib => Sys2Proof.Machine.execXorAlIb ib s
  | .xorEaxIz iz => Sys2Proof.Machine.execXorEaxIz iz s
  | .cmpRm8R8 rm r => Sys2Proof.Machine.execCmpRm8R8 rm r s
  | .cmpRmvRv rm r => Sys2Proof.Machine.execCmpRmvRv rm r s
  | .cmpR8Rm8 r rm => Sys2Proof.Machine.execCmpR8Rm8 r rm s
  | .cmpRvRmv r rm => Sys2Proof.Machine.execCmpRvRmv r rm s
  | .cmpAlIb ib => Sys2Proof.Machine.execCmpAlIb ib s
  | .cmpEaxIz iz => Sys2Proof.Machine.execCmpEaxIz iz s
  | .addRm8Ib rm ib => Sys2Proof.Machine.execAddRm8Ib rm ib s
  | .addRmvIz rm iz => Sys2Proof.Machine.execAddRmvIz rm iz s
  | .addRmvIbs rm ib => Sys2Proof.Machine.execAddRmvIbs rm ib s
  | .orRm8Ib rm ib => Sys2Proof.Machine.execOrRm8Ib rm ib s
  | .orRmvIz rm iz => Sys2Proof.Machine.execOrRmvIz rm iz s
  | .orRmvIbs rm ib => Sys2Proof.Machine.execOrRmvIbs rm ib s
  | .adcRm8Ib rm ib => Sys2Proof.Machine.execAdcRm8Ib rm ib s
  | .adcRmvIz rm iz => Sys2Proof.Machine.execAdcRmvIz rm iz s
  | .adcRmvIbs rm ib => Sys2Proof.Machine.execAdcRmvIbs rm ib s
  | .sbbRm8Ib rm ib => Sys2Proof.Machine.execSbbRm8Ib rm ib s
  | .sbbRmvIz rm iz => Sys2Proof.Machine.execSbbRmvIz rm iz s
  | .sbbRmvIbs rm ib => Sys2Proof.Machine.execSbbRmvIbs rm ib s
  | .andRm8Ib rm ib => Sys2Proof.Machine.execAndRm8Ib rm ib s
  | .andRmvIz rm iz => Sys2Proof.Machine.execAndRmvIz rm iz s
  | .andRmvIbs rm ib => Sys2Proof.Machine.execAndRmvIbs rm ib s
  | .subRm8Ib rm ib => Sys2Proof.Machine.execSubRm8Ib rm ib s
  | .subRmvIz rm iz => Sys2Proof.Machine.execSubRmvIz rm iz s
  | .subRmvIbs rm ib => Sys2Proof.Machine.execSubRmvIbs rm ib s
  | .xorRm8Ib rm ib => Sys2Proof.Machine.execXorRm8Ib rm ib s
  | .xorRmvIz rm iz => Sys2Proof.Machine.execXorRmvIz rm iz s
  | .xorRmvIbs rm ib => Sys2Proof.Machine.execXorRmvIbs rm ib s
  | .cmpRm8Ib rm ib => Sys2Proof.Machine.execCmpRm8Ib rm ib s
  | .cmpRmvIz rm iz => Sys2Proof.Machine.execCmpRmvIz rm iz s
  | .cmpRmvIbs rm ib => Sys2Proof.Machine.execCmpRmvIbs rm ib s
  | .pushEs => Sys2Proof.Machine.execPushEs s
  | .popEs => Sys2Proof.Machine.execPopEs s
  | .pushCs => Sys2Proof.Machine.execPushCs s
  | .pushSs => Sys2Proof.Machine.execPushSs s
  | .popSs => Sys2Proof.Machine.execPopSs s
  | .pushDs => Sys2Proof.Machine.execPushDs s
  | .popDs => Sys2Proof.Machine.execPopDs s
  | .pushFs => Sys2Proof.Machine.execPushFs s
  | .popFs => Sys2Proof.Machine.execPopFs s
  | .pushGs => Sys2Proof.Machine.execPushGs s
  | .popGs => Sys2Proof.Machine.execPopGs s
  | .incRv r => Sys2Proof.Machine.execIncRv r s
  | .decRv r => Sys2Proof.Machine.execDecRv r s
  | .pushRv r => Sys2Proof.Machine.execPushRv r s
  | .popRv r => Sys2Proof.Machine.execPopRv r s
  | .pusha => Sys2Proof.Machine.execPusha s
  | .popa => Sys2Proof.Machine.execPopa s
  | .pushIz iz => Sys2Proof.Machine.execPushIz iz s
  | .imulRvRmvIz r rm iz => Sys2Proof.Machine.execImulRvRmvIz r rm iz s
  | .pushIbs ib => Sys2Proof.Machine.execPushIbs ib s
  | .imulRvRmvIbs r rm ib => Sys2Proof.Machine.execImulRvRmvIbs r rm ib s
  | .insB => Sys2Proof.Machine.execInsB s
  | .insV => Sys2Proof.Machine.execInsV s
  | .outsB => Sys2Proof.Machine.execOutsB s
  | .outsV => Sys2Proof.Machine.execOutsV s
  | .jccRel8 cc rel => Sys2Proof.Machine.execJccRel8 cc rel s
  | .testRm8R8 rm r => Sys2Proof.Machine.execTestRm8R8 rm r s
  | .testRmvRv rm r => Sys2Proof.Machine.execTestRmvRv rm r s
  | .xchgRm8R8 rm r => Sys2Proof.Machine.execXchgRm8R8 rm r s
  | .xchgRmvRv rm r => Sys2Proof.Machine.execXchgRmvRv rm r s
  | .movRm8R8 rm r => Sys2Proof.Machine.execMovRm8R8 rm r s
  | .movRmvRv rm r => Sys2Proof.Machine.execMovRmvRv rm r s
  | .movR8Rm8 r rm => Sys2Proof.Machine.execMovR8Rm8 r rm s
  | .movRvRmv r rm => Sys2Proof.Machine.execMovRvRmv r rm s
  | .movRm16Sreg rm sr => Sys2Proof.Machine.execMovRm16Sreg rm sr s
  | .leaRvM r m => Sys2Proof.Machine.execLeaRvM r m s
  | .movSregRm16 sr rm => Sys2Proof.Machine.execMovSregRm16 sr rm s
  | .popRmv rm => Sys2Proof.Machine.execPopRmv rm s
  | .nop => Sys2Proof.Machine.execNop s
  | .xchgEaxEcx => Sys2Proof.Machine.execXchgEaxEcx s
  | .xchgEaxEdx => Sys2Proof.Machine.execXchgEaxEdx s
  | .xchgEaxEbx => Sys2Proof.Machine.execXchgEaxEbx s
  | .xchgEaxEsp => Sys2Proof.Machine.execXchgEaxEsp s
  | .xchgEaxEbp => Sys2Proof.Machine.execXchgEaxEbp s
  | .xchgEaxEsi => Sys2Proof.Machine.execXchgEaxEsi s
  | .xchgEaxEdi => Sys2Proof.Machine.execXchgEaxEdi s
  | .cbw => Sys2Proof.Machine.execCbw s
  | .cwd => Sys2Proof.Machine.execCwd s
  | .callFarPtr off sel => Sys2Proof.Machine.execCallFarPtr off sel s
  | .pushf => Sys2Proof.Machine.execPushf s
  | .popf => Sys2Proof.Machine.execPopf s
  | .sahf => Sys2Proof.Machine.execSahf s
  | .lahf => Sys2Proof.Machine.execLahf s
  | .movAlMoffs8 off => Sys2Proof.Machine.execMovAlMoffs8 off s
  | .movEaxMoffsv off => Sys2Proof.Machine.execMovEaxMoffsv off s
  | .movMoffs8Al off => Sys2Proof.Machine.execMovMoffs8Al off s
  | .movMoffsvEax off => Sys2Proof.Machine.execMovMoffsvEax off s
  | .movsB => Sys2Proof.Machine.execMovsB s
  | .movsV => Sys2Proof.Machine.execMovsV s
  | .cmpsB => Sys2Proof.Machine.execCmpsB s
  | .cmpsV => Sys2Proof.Machine.execCmpsV s
  | .stosB => Sys2Proof.Machine.execStosB s
  | .stosV => Sys2Proof.Machine.execStosV s
  | .lodsB => Sys2Proof.Machine.execLodsB s
  | .lodsV => Sys2Proof.Machine.execLodsV s
  | .scasB => Sys2Proof.Machine.execScasB s
  | .scasV => Sys2Proof.Machine.execScasV s
  | .testAlIb ib => Sys2Proof.Machine.execTestAlIb ib s
  | .testEaxIz iz => Sys2Proof.Machine.execTestEaxIz iz s
  | .movR8Ib r ib => Sys2Proof.Machine.execMovR8Ib r ib s
  | .movRvIz r iz => Sys2Proof.Machine.execMovRvIz r iz s
  | .rolRm8Ib rm ib => Sys2Proof.Machine.execRolRm8Ib rm ib s
  | .rorRm8Ib rm ib => Sys2Proof.Machine.execRorRm8Ib rm ib s
  | .rclRm8Ib rm ib => Sys2Proof.Machine.execRclRm8Ib rm ib s
  | .rcrRm8Ib rm ib => Sys2Proof.Machine.execRcrRm8Ib rm ib s
  | .shlRm8Ib rm ib => Sys2Proof.Machine.execShlRm8Ib rm ib s
  | .shrRm8Ib rm ib => Sys2Proof.Machine.execShrRm8Ib rm ib s
  | .sarRm8Ib rm ib => Sys2Proof.Machine.execSarRm8Ib rm ib s
  | .rolRmvIb rm ib => Sys2Proof.Machine.execRolRmvIb rm ib s
  | .rorRmvIb rm ib => Sys2Proof.Machine.execRorRmvIb rm ib s
  | .rclRmvIb rm ib => Sys2Proof.Machine.execRclRmvIb rm ib s
  | .rcrRmvIb rm ib => Sys2Proof.Machine.execRcrRmvIb rm ib s
  | .shlRmvIb rm ib => Sys2Proof.Machine.execShlRmvIb rm ib s
  | .shrRmvIb rm ib => Sys2Proof.Machine.execShrRmvIb rm ib s
  | .sarRmvIb rm ib => Sys2Proof.Machine.execSarRmvIb rm ib s
  | .rolRm8One rm => Sys2Proof.Machine.execRolRm8One rm s
  | .rorRm8One rm => Sys2Proof.Machine.execRorRm8One rm s
  | .rclRm8One rm => Sys2Proof.Machine.execRclRm8One rm s
  | .rcrRm8One rm => Sys2Proof.Machine.execRcrRm8One rm s
  | .shlRm8One rm => Sys2Proof.Machine.execShlRm8One rm s
  | .shrRm8One rm => Sys2Proof.Machine.execShrRm8One rm s
  | .sarRm8One rm => Sys2Proof.Machine.execSarRm8One rm s
  | .rolRmvOne rm => Sys2Proof.Machine.execRolRmvOne rm s
  | .rorRmvOne rm => Sys2Proof.Machine.execRorRmvOne rm s
  | .rclRmvOne rm => Sys2Proof.Machine.execRclRmvOne rm s
  | .rcrRmvOne rm => Sys2Proof.Machine.execRcrRmvOne rm s
  | .shlRmvOne rm => Sys2Proof.Machine.execShlRmvOne rm s
  | .shrRmvOne rm => Sys2Proof.Machine.execShrRmvOne rm s
  | .sarRmvOne rm => Sys2Proof.Machine.execSarRmvOne rm s
  | .rolRm8Cl rm => Sys2Proof.Machine.execRolRm8Cl rm s
  | .rorRm8Cl rm => Sys2Proof.Machine.execRorRm8Cl rm s
  | .rclRm8Cl rm => Sys2Proof.Machine.execRclRm8Cl rm s
  | .rcrRm8Cl rm => Sys2Proof.Machine.execRcrRm8Cl rm s
  | .shlRm8Cl rm => Sys2Proof.Machine.execShlRm8Cl rm s
  | .shrRm8Cl rm => Sys2Proof.Machine.execShrRm8Cl rm s
  | .sarRm8Cl rm => Sys2Proof.Machine.execSarRm8Cl rm s
  | .rolRmvCl rm => Sys2Proof.Machine.execRolRmvCl rm s
  | .rorRmvCl rm => Sys2Proof.Machine.execRorRmvCl rm s
  | .rclRmvCl rm => Sys2Proof.Machine.execRclRmvCl rm s
  | .rcrRmvCl rm => Sys2Proof.Machine.execRcrRmvCl rm s
  | .shlRmvCl rm => Sys2Proof.Machine.execShlRmvCl rm s
  | .shrRmvCl rm => Sys2Proof.Machine.execShrRmvCl rm s
  | .sarRmvCl rm => Sys2Proof.Machine.execSarRmvCl rm s
  | .retIw iw => Sys2Proof.Machine.execRetIw iw s
  | .ret => Sys2Proof.Machine.execRet s
  | .lesRvMem r m => Sys2Proof.Machine.execLesRvMem r m s
  | .ldsRvMem r m => Sys2Proof.Machine.execLdsRvMem r m s
  | .movRm8Ib rm ib => Sys2Proof.Machine.execMovRm8Ib rm ib s
  | .movRmvIz rm iz => Sys2Proof.Machine.execMovRmvIz rm iz s
  | .leave => Sys2Proof.Machine.execLeave s
  | .retfIw iw => Sys2Proof.Machine.execRetfIw iw s
  | .retf => Sys2Proof.Machine.execRetf s
  | .int3 => Sys2Proof.Machine.execInt3 s
  | .intIb ib => Sys2Proof.Machine.execIntIb ib s
  | .into => Sys2Proof.Machine.execInto s
  | .iret => Sys2Proof.Machine.execIret s
  | .xlat => Sys2Proof.Machine.execXlat s
  | .loopneRel8 rel => Sys2Proof.Machine.execLoopneRel8 rel s
  | .loopeRel8 rel => Sys2Proof.Machine.execLoopeRel8 rel s
  | .loopRel8 rel => Sys2Proof.Machine.execLoopRel8 rel s
  | .jcxzRel8 rel => Sys2Proof.Machine.execJcxzRel8 rel s
  | .inAlIb ib => Sys2Proof.Machine.execInAlIb ib s
  | .inEaxIb ib => Sys2Proof.Machine.execInEaxIb ib s
  | .outIbAl ib => Sys2Proof.Machine.execOutIbAl ib s
  | .outIbEax ib => Sys2Proof.Machine.execOutIbEax ib s
  | .callRelz rel => Sys2Proof.Machine.execCallRelz rel s
  | .jmpRelz rel => Sys2Proof.Machine.execJmpRelz rel s
  | .jmpFarPtr off sel => Sys2Proof.Machine.execJmpFarPtr off sel s
  | .jmpRel8 rel => Sys2Proof.Machine.execJmpRel8 rel s
  | .inAlDx => Sys2Proof.Machine.execInAlDx s
  | .inEaxDx => Sys2Proof.Machine.execInEaxDx s
  | .outDxAl => Sys2Proof.Machine.execOutDxAl s
  | .outDxEax => Sys2Proof.Machine.execOutDxEax s
  | .hlt => Sys2Proof.Machine.execHlt s
  | .cmc => Sys2Proof.Machine.execCmc s
  | .testRm8Ib rm ib => Sys2Proof.Machine.execTestRm8Ib rm ib s
  | .notRm8 rm => Sys2Proof.Machine.execNotRm8 rm s
  | .negRm8 rm => Sys2Proof.Machine.execNegRm8 rm s
  | .mulRm8 rm => Sys2Proof.Machine.execMulRm8 rm s
  | .imulRm8 rm => Sys2Proof.Machine.execImulRm8 rm s
  | .divRm8 rm => Sys2Proof.Machine.execDivRm8 rm s
  | .idivRm8 rm => Sys2Proof.Machine.execIdivRm8 rm s
  | .testRmvIz rm iz => Sys2Proof.Machine.execTestRmvIz rm iz s
  | .notRmv rm => Sys2Proof.Machine.execNotRmv rm s
  | .negRmv rm => Sys2Proof.Machine.execNegRmv rm s
  | .mulRmv rm => Sys2Proof.Machine.execMulRmv rm s
  | .imulRmv rm => Sys2Proof.Machine.execImulRmv rm s
  | .divRmv rm => Sys2Proof.Machine.execDivRmv rm s
  | .idivRmv rm => Sys2Proof.Machine.execIdivRmv rm s
  | .clc => Sys2Proof.Machine.execClc s
  | .stc => Sys2Proof.Machine.execStc s
  | .cli => Sys2Proof.Machine.execCli s
  | .sti => Sys2Proof.Machine.execSti s
  | .cld => Sys2Proof.Machine.execCld s
  | .std => Sys2Proof.Machine.execStd s
  | .incRm8 rm => Sys2Proof.Machine.execIncRm8 rm s
  | .decRm8 rm => Sys2Proof.Machine.execDecRm8 rm s
  | .incRmv rm => Sys2Proof.Machine.execIncRmv rm s
  | .decRmv rm => Sys2Proof.Machine.execDecRmv rm s
  | .callRmv rm => Sys2Proof.Machine.execCallRmv rm s
  | .callFarMem m => Sys2Proof.Machine.execCallFarMem m s
  | .jmpRmv rm => Sys2Proof.Machine.execJmpRmv rm s
  | .jmpFarMem m => Sys2Proof.Machine.execJmpFarMem m s
  | .pushRmv rm => Sys2Proof.Machine.execPushRmv rm s
  | .sldtRm16 rm => Sys2Proof.Machine.execSldtRm16 rm s
  | .strRm16 rm => Sys2Proof.Machine.execStrRm16 rm s
  | .lldtRm16 rm => Sys2Proof.Machine.execLldtRm16 rm s
  | .ltrRm16 rm => Sys2Proof.Machine.execLtrRm16 rm s
  | .sgdtM m => Sys2Proof.Machine.execSgdtM m s
  | .sidtM m => Sys2Proof.Machine.execSidtM m s
  | .lgdtM m => Sys2Proof.Machine.execLgdtM m s
  | .lidtM m => Sys2Proof.Machine.execLidtM m s
  | .smswRm16 rm => Sys2Proof.Machine.execSmswRm16 rm s
  | .lmswRm16 rm => Sys2Proof.Machine.execLmswRm16 rm s
  | .clts => Sys2Proof.Machine.execClts s
  | .movR32Cr md r k => Sys2Proof.Machine.execMovR32Cr md r k s
  | .movR32Dr md r k => Sys2Proof.Machine.execMovR32Dr md r k s
  | .movCrR32 md k r => Sys2Proof.Machine.execMovCrR32 md k r s
  | .movDrR32 md k r => Sys2Proof.Machine.execMovDrR32 md k r s
  | .jccRelz cc rel => Sys2Proof.Machine.execJccRelz cc rel s
  | .setccRm8 cc ig rm => Sys2Proof.Machine.execSetccRm8 cc ig rm s
  | .shldRmvRvIb rm r ib => Sys2Proof.Machine.execShldRmvRvIb rm r ib s
  | .shldRmvRvCl rm r => Sys2Proof.Machine.execShldRmvRvCl rm r s
  | .shrdRmvRvIb rm r ib => Sys2Proof.Machine.execShrdRmvRvIb rm r ib s
  | .shrdRmvRvCl rm r => Sys2Proof.Machine.execShrdRmvRvCl rm r s
  | .imulRvRmv r rm => Sys2Proof.Machine.execImulRvRmv r rm s
  | .lssRvMem r m => Sys2Proof.Machine.execLssRvMem r m s
  | .lfsRvMem r m => Sys2Proof.Machine.execLfsRvMem r m s
  | .lgsRvMem r m => Sys2Proof.Machine.execLgsRvMem r m s
  | .movzxRvRm8 r rm => Sys2Proof.Machine.execMovzxRvRm8 r rm s
  | .movzxRvRm16 r rm => Sys2Proof.Machine.execMovzxRvRm16 r rm s
  | .movsxRvRm8 r rm => Sys2Proof.Machine.execMovsxRvRm8 r rm s
  | .movsxRvRm16 r rm => Sys2Proof.Machine.execMovsxRvRm16 r rm s

end Sys2Proof.Machine
end

