-- ==== Sys2Proof/Machine/Loop.lean ====
section
/-! DEFINITION. The step loop: fetching an instruction's bytes (30_encoding R160 to R162), one instruction step, and
one iteration between two boundaries (60_exceptions R496, R515, R521, R526). -/

namespace Sys2Proof.Machine

/-- The instruction bytes that can be fetched from an offset, in order, and what stops the fetch after them: the fault
of the next byte, or #GP(0) at the 16th byte (30_encoding R161, R162). -/
def fetchAvail : Nat → Word → State → List Byte × Stop
  | 0, _, _ => ([], protection 0)
  | n + 1, off, s =>
    match fetchByte off s with
    | .error e => ([], e)
    | .ok (b, t) => (b :: (fetchAvail n (off + 1) t).1, (fetchAvail n (off + 1) t).2)

/-- The bytes at CS:EIP and what stops the fetch after them. -/
def State.fetched (s : State) : List Byte × Stop :=
  fetchAvail maxLength s.eip s

/-- What the decoder reads at CS:EIP (30_encoding R160, R168, R200). -/
def State.decoded (s : State) : Decoded :=
  decode s.pe s.segs.cs.ar.db s.fetched.1

/-- One instruction step (30_encoding R160). The decoder asks for no byte past the instruction, so a fault of a later
byte is not taken; if the bytes run out, the fault of the next byte is (60_exceptions R510). -/
def instrStep (s : State) : Step :=
  match s.decoded with
  | .ok c i _ => exec i { s with ctx := c }
  | .reject why => abortOutcome (.unimplemented (.encoding why)) s
  | .short => settle s s.eip (.error s.fetched.2)

/-- The single-step trap of a step that committed and did not deliver (60_exceptions R515). -/
def trapStep : Step → Step
  | .next s => if s.tfAtStart then deliverEvent 1 .trap none s.eip s else .next s
  | .fault f => .fault f
  | .refused r => .refused r

/-- The boundary after a step: the single-step latch and the prefix state hold nothing between steps (10_state R53,
R54; log 13, log 15). -/
def State.atBoundary (s : State) : State :=
  { s with tfAtStart := false, ctx := Ctx.clear }

/-- The step ends at a boundary, and so does the state that a stop leaves. -/
def closeStep : Step → Step
  | .next s => .next s.atBoundary
  | .fault (.doubleFault s) => .fault (.doubleFault s.atBoundary)
  | .fault (.physicalOutOfRange s) => .fault (.physicalOutOfRange s.atBoundary)
  | .refused (.unimplemented why s) => .refused (.unimplemented why s.atBoundary)
  | .refused r => .refused r

/-- A pending interrupt is taken (60_exceptions R496, R521, R524). -/
def takeInterrupt (vec : Byte) (rest : List Byte) (s : State) : Step :=
  let t := { s with pendingIrq := rest, activity := .running }
  if t.params.emulatedVectors.contains vec then .next (t.hostCall (.interrupt vec))
  else deliverEvent vec .external none t.eip t

/-- Execution has reached a callback slot: the device is called, and the slot acts as a far return of the default
operand size (60_exceptions R526, log 21). The host call and the return start from the state that the slot check left, so
with PAGING_SETS_AD the accessed bits of its walk stay, also when the return faults: the model's choice (log 30). -/
def callbackStep (slot : Word) (s : State) : Step :=
  let t := s.hostCall (.callback slot)
  settle t s.eip (retFar (if t.segs.cs.ar.db then .b32 else .b16) 0 t)

/-- The instruction step of an iteration with its single-step trap (60_exceptions R496, R515). -/
def runStep (s : State) : Step :=
  trapStep (instrStep { s with tfAtStart := s.flag .tf })

/-- The running core at a boundary with no interrupt to take: a callback slot, or an instruction (60_exceptions R496).
A fault in finding the slot address is the fault of the instruction's first fetch. With PAGING_SETS_AD the accessed bits of
that walk stay where a slot is reached; otherwise the instruction starts from the state before the walk, and they are those
of its own fetch, kept if it commits: the model's choice (log 30). -/
def executeStep (s : State) : Step :=
  match fetchAddress s.eip s with
  | .ok (p, t) => if s.params.callbackSlots.contains p then callbackStep p t else runStep s
  | .error _ => runStep s

/-- Iteration() (60_exceptions R496). -/
def iteration (s : State) : Step :=
  match s.fatal with
  | some r => .refused (.fatalLatch r)
  | none =>
    match s.flag .intf, s.pendingIrq with
    | true, v :: rest => closeStep (takeInterrupt v rest s)
    | _, _ => if s.activity = .halted then .next s else closeStep (executeStep s)

/-- Store bytes where the fetch at an offset and the offsets after it will read them; a byte that no fetch can reach is
not stored. -/
def placeBytes : List Byte → Word → State → State
  | [], _, s => s
  | b :: bs, off, s =>
    match fetchAddress off s with
    | .ok (p, _) =>
      if p.toNat < s.params.memSize then placeBytes bs (off + 1) { s with mem := Memory.write s.mem p.toNat b }
      else placeBytes bs (off + 1) s
    | .error _ => placeBytes bs (off + 1) s

/-- The next iteration runs an instruction: the core runs, no fatal reason is latched, no interrupt would be taken and
the instruction lies in no callback slot (log 10). -/
def State.readyToRun (s : State) : State :=
  { s with
    activity := .running
    fatal := none
    pendingIrq := if s.flag .intf then [] else s.pendingIrq
    params := { s.params with
      callbackSlots :=
        match fetchAddress s.eip s with
        | .ok (p, _) => s.params.callbackSlots.filter (fun a => a != p)
        | .error _ => s.params.callbackSlots } }

end Sys2Proof.Machine
end

