-- ==== Sys2Proof/Machine/Step.lean ====
section
/-! DEFINITION. One step of the machine, and the placing of an instruction where the next step fetches. -/

namespace Sys2Proof.Machine

/-- One step: one iteration of the step loop (60_exceptions R496). -/
def step (s : State) : Host.Outcome State Fault Refusal :=
  iteration s

/-- The state with a table word stored where the next step fetches its instruction (log 10). -/
def State.withFetchWord (s : State) (nbits w : Nat) : State :=
  placeBytes (tableBytes nbits w) s.eip s.readyToRun

end Sys2Proof.Machine
end

