-- ==== Sys2Proof/Machine/HostInterface.lean ====
section
/-! DEFINITION. What the host does at a boundary: run, raise an interrupt, load a program (00_scope R9;
60_exceptions R520; 70_reset_and_hazards R550, R556). -/

namespace Sys2Proof.Machine

/-- RaiseInterrupt(vector) (60_exceptions R520). -/
def State.raiseInterrupt (s : State) (vec : Byte) : State :=
  { s with pendingIrq := s.pendingIrq ++ [vec] }

/-- What the program loader writes (70_reset_and_hazards R550). -/
structure LoadImage where
  cs : Half
  ds : Half
  es : Half
  ss : Half
  sp : Half
  ip : Half
  bytes : List (Nat × Byte)
  deriving DecidableEq, Repr

/-- Store the bytes of an image. -/
def loadBytes : List (Nat × Byte) → List Host.Cell → List Host.Cell
  | [], m => m
  | c :: cs, m => loadBytes cs (Memory.write m c.1 c.2)

/-- The loader contract (70_reset_and_hazards R550): real-mode loads of CS, DS, ES and SS, SP and IP with zero upper
halves, and memory; a byte outside physical memory is not written (log 8). -/
def State.loadProgram (s : State) (p : LoadImage) : State :=
  { s with
    segs :=
      { s.segs with
        cs := realSegment s.segs.cs p.cs
        ds := realSegment s.segs.ds p.ds
        es := realSegment s.segs.es p.es
        ss := realSegment s.segs.ss p.ss }
    regs := s.regs.set .esp (p.sp.setWidth 32)
    eip := p.ip.setWidth 32
    mem := loadBytes (p.bytes.filter fun c => decide (c.1 < s.params.memSize)) s.mem }

/-- The state with a HostFatal reason latched (10_state R56). -/
def State.latch (s : State) (r : Fatal) : State :=
  { s with fatal := some r }

/-- How an iteration ends for the run: the state at the next boundary, and the reason if it ended with HostFatal, latched on
what the failing step left (00_scope R8, 60_exceptions R496, R508; log 26). -/
def State.iterate (s : State) : State × Option Fatal :=
  match step s with
  | .next t => (t, none)
  | .fault (.doubleFault t) => (t.latch .doubleFault, some .doubleFault)
  | .fault (.physicalOutOfRange t) => (t.latch .physicalOutOfRange, some .physicalOutOfRange)
  | .refused (.unimplemented _ t) => (t.latch .unimplemented, some .unimplemented)
  | .refused (.fatalLatch r) => (s, some r)
  | .refused _ => (s.latch .unimplemented, some .unimplemented)

/-- Run(N) (70_reset_and_hazards R556): the state, and the HostFatal reason if the run ended with one. -/
def State.runBudget : Nat → State → State × Option Fatal
  | 0, s => (s, s.fatal)
  | n + 1, s =>
    match s.iterate with
    | (t, none) => State.runBudget n t
    | (t, some r) => (t, some r)

end Sys2Proof.Machine
end

