-- ==== Sys2Proof/Safety.lean ====
section
/-! DEFINITION. The terms of the claims: the invariant of the machine at a boundary, what a state can read and write,
the plain value and store of an operand, and what an instruction leaves alone. Page walks write nothing throughout
(PAGING_SETS_AD false, its default), with paging on or off. -/

namespace Sys2Proof.Machine

/-- EFLAGS reads as 10_state R39 says: bit 1 set, bits 3, 5, 15 to 31 clear. -/
def State.flagsFixed (s : State) : Bool :=
  s.eflags &&& ~~~flagsWmask == 2

/-- Every listed byte lies in physical memory (20_memory R80). -/
def State.memInRange (s : State) : Bool :=
  s.mem.all fun c => decide (c.1 < s.params.memSize)

/-- MEM_SIZE is in its range (00_scope R10). -/
def State.sizeOk (s : State) : Bool :=
  decide (0 < s.params.memSize) && decide (s.params.memSize ≤ 4294967296)

/-- Nothing that lives only inside a step is left over: the single-step latch, the delivery depth and the prefix state
(10_state R53 to R55). -/
def State.quiet (s : State) : Bool :=
  !s.tfAtStart && s.depth == 0 && s.ctx == Ctx.clear

/-- The invariant of a state at a boundary. -/
def State.Inv (s : State) : Prop :=
  Memory.wf s.mem = true ∧ s.memInRange = true ∧ s.sizeOk = true ∧ s.flagsFixed = true ∧ s.quiet = true

/-! ### Operands -/

/-- Page walks write nothing: PAGING_SETS_AD is false, its default (20_memory R134). -/
def State.plainWalks (s : State) : Bool :=
  !s.params.pagingSetsAD

/-- Physical addresses are populated (20_memory R82). -/
def State.inRam (s : State) (ps : List Word) : Bool :=
  ps.all fun a => decide (a.toNat < s.params.memSize)

/-- The little-endian number at physical addresses (20_memory R81). -/
def State.numberOf (s : State) (ps : List Word) : Nat :=
  leNat (ps.map fun a => Memory.read s.mem a.toNat)

/-- The page-table entry at a physical address, if it is populated (20_memory R130). -/
def State.entry (s : State) (a : Word) : Option Word :=
  if s.inRam (addrs a 4) then some (BitVec.ofNat 32 (s.numberOf (addrs a 4))) else none

/-- The physical address of a linear address, if an access may be made there (20_memory R130, R133). -/
def State.phys (s : State) (acc : Access) (user : Bool) (lin : Word) : Option Word :=
  if s.paging then
    (s.entry ((s.cr3 &&& 0xFFFFF000#32) + (lin >>> 22) * 4)).bind fun pde =>
      if pde.getLsbD 0 then
        (s.entry ((pde &&& 0xFFFFF000#32) + ((lin >>> 12) &&& 0x3FF) * 4)).bind fun pte =>
          if pte.getLsbD 0 && permitted s.params.supervisorWriteProtect pde pte acc user then
            some ((pte &&& 0xFFFFF000) ||| (lin &&& 0xFFF))
          else none
      else none
  else some lin

/-- The error code of the page fault that the walk of a linear address raises; none where it raises no page fault, either
because the access may be made or because a page-table entry lies outside memory (20_memory R130, R132, R133). -/
def State.walkFault (s : State) (acc : Access) (user : Bool) (lin : Word) : Option Half :=
  if s.paging then
    (s.entry ((s.cr3 &&& 0xFFFFF000#32) + (lin >>> 22) * 4)).bind fun pde =>
      if pde.getLsbD 0 then
        (s.entry ((pde &&& 0xFFFFF000#32) + ((lin >>> 12) &&& 0x3FF) * 4)).bind fun pte =>
          if !pte.getLsbD 0 then some (pageFaultCode false acc user)
          else if permitted s.params.supervisorWriteProtect pde pte acc user then none
          else some (pageFaultCode true acc user)
      else some (pageFaultCode false acc user)
  else none

/-- What stops an access that the walk of a linear address does not allow: #PF with CR2 the address, or, for an entry
outside memory, the end of the run (20_memory R82, R132). -/
def State.walkStop (s : State) (acc : Access) (user : Bool) (lin : Word) : Stop :=
  match s.walkFault acc user lin with
  | some e => .raise ⟨14, some e, some lin⟩
  | none => .fatal .physicalOutOfRange

/-- The physical addresses of linear addresses, if the access may be made at all of them (20_memory R135). -/
def State.physAll (s : State) (acc : Access) (user : Bool) : List Word → Option (List Word)
  | [] => some []
  | a :: as => (s.phys acc user a).bind fun p => (s.physAll acc user as).map fun ps => p :: ps

/-- An n-byte linear access succeeds (20_memory R82, R135). -/
def State.backed (s : State) (acc : Access) (user : Bool) (lin : Word) (n : Nat) : Bool :=
  match s.physAll acc user (addrs lin n) with
  | some ps => s.inRam ps
  | none => false

/-- The n-byte number at a linear address (20_memory R135). -/
def State.valueAt (s : State) (user : Bool) (lin : Word) (n : Nat) : Nat :=
  match s.physAll .read user (addrs lin n) with
  | some ps => s.numberOf ps
  | none => 0

/-- Store bytes at addresses, in order. -/
def storeBytes : List Word → List Byte → List Host.Cell → List Host.Cell
  | a :: as, b :: bs, m => storeBytes as bs (Memory.write m a.toNat b)
  | _, _, m => m

/-- The state with an n-byte number stored at a linear address (20_memory R83, R135). -/
def State.storeAt (s : State) (user : Bool) (lin : Word) (n v : Nat) : State :=
  match s.physAll .write user (addrs lin n) with
  | some ps => { s with mem := storeBytes ps (leBytes n v) s.mem }
  | none => s

/-- The linear address of an offset in a segment (20_memory R101). -/
def State.linear (s : State) (r : SReg) (off : Word) : Word :=
  (s.seg r).base + off

/-- A segment may be read: no check in real mode, R103 in protected mode. -/
def State.mayRead (s : State) (r : SReg) : Bool :=
  !s.pe || ((s.seg r).valid && (!(s.seg r).ar.code || (s.seg r).ar.readWrite))

/-- A segment may be written: no check in real mode, R103 in protected mode. -/
def State.mayWrite (s : State) (r : SReg) : Bool :=
  !s.pe || ((s.seg r).valid && (s.seg r).ar.writable)

/-- n bytes can be read through a segment (20_memory R100, R102, R103). -/
def State.readable (s : State) (r : SReg) (off : Word) (n : Nat) : Bool :=
  (s.seg r).inBounds off n && s.mayRead r && s.backed .read s.user (s.linear r off) n

/-- n bytes can be written through a segment (20_memory R100, R102, R103). -/
def State.writable (s : State) (r : SReg) (off : Word) (n : Nat) : Bool :=
  (s.seg r).inBounds off n && s.mayWrite r && s.backed .write s.user (s.linear r off) n

/-- Byte k is the first of the n bytes at an offset in a segment whose walk does not allow the access (20_memory R135,
log 18). -/
def State.blockedAt (s : State) (acc : Access) (r : SReg) (off : Word) (n k : Nat) : Bool :=
  decide (k < n) && (List.range k).all (fun j => (s.phys acc s.user (s.linear r off + BitVec.ofNat 32 j)).isSome) &&
    (s.phys acc s.user (s.linear r off + BitVec.ofNat 32 k)).isNone

/-- The walks of the n bytes at an offset in a segment allow the access, but a byte lies outside memory (20_memory
R82). -/
def State.leavesMemory (s : State) (acc : Access) (r : SReg) (off : Word) (n : Nat) : Bool :=
  match s.physAll acc s.user (addrs (s.linear r off) n) with
  | some ps => !s.inRam ps
  | none => false

/-- The n-byte number at an offset in a segment (20_memory R100). -/
def State.loadFrom (s : State) (r : SReg) (off : Word) (n : Nat) : Nat :=
  s.valueAt s.user (s.linear r off) n

/-- The state with an n-byte number stored at an offset in a segment (20_memory R100). -/
def State.storeTo (s : State) (r : SReg) (off : Word) (n v : Nat) : State :=
  s.storeAt s.user (s.linear r off) n v

/-- An operand can be read. -/
def State.locReadable (s : State) (w : Size) : Loc → Bool
  | .reg _ => true
  | .mem r off => s.readable r off w.bytes

/-- An operand can be written. -/
def State.locWritable (s : State) (w : Size) : Loc → Bool
  | .reg _ => true
  | .mem r off => s.writable r off w.bytes

/-- The value of an operand (30_encoding R177). -/
def State.locValue (s : State) (w : Size) : Loc → BitVec w.bits
  | .reg r => s.view w r
  | .mem r off => BitVec.ofNat w.bits (s.loadFrom r off w.bytes)

/-- The state with an operand written (30_encoding R177). -/
def State.locStore (s : State) (w : Size) (l : Loc) (v : BitVec w.bits) : State :=
  match l with
  | .reg r => s.setView w r v
  | .mem r off => s.storeTo r off w.bytes v.toNat

/-- The state with EIP at the next instruction (10_state R36). -/
def State.advanced (s : State) : State :=
  { s with eip := s.nextEip }

/-- The state with a new flags image. -/
def State.withFlags (s : State) (f : Word → Word) : State :=
  { s with eflags := f s.eflags }

/-- The state after one free value is drawn. -/
def State.drawn (s : State) : State :=
  { s with draws := s.draws + 1 }

/-- The free value the next draw takes. -/
def State.free (s : State) : Word :=
  Config.freeValue s.draws

/-! ### Two-operand instructions -/

/-- The nine forms of a two-operand ALU instruction (40_arithmetic R233). -/
structure NineForms where
  rm8R8 : RM → Reg → Instr
  rmvRv : RM → Reg → Instr
  r8Rm8 : Reg → RM → Instr
  rvRmv : Reg → RM → Instr
  alIb : Byte → Instr
  eaxIz : Word → Instr
  rm8Ib : RM → Byte → Instr
  rmvIz : RM → Word → Instr
  rmvIbs : RM → Byte → Instr

def NineForms.add : NineForms :=
  ⟨.addRm8R8, .addRmvRv, .addR8Rm8, .addRvRmv, .addAlIb, .addEaxIz, .addRm8Ib, .addRmvIz, .addRmvIbs⟩

def NineForms.adc : NineForms :=
  ⟨.adcRm8R8, .adcRmvRv, .adcR8Rm8, .adcRvRmv, .adcAlIb, .adcEaxIz, .adcRm8Ib, .adcRmvIz, .adcRmvIbs⟩

def NineForms.sub : NineForms :=
  ⟨.subRm8R8, .subRmvRv, .subR8Rm8, .subRvRmv, .subAlIb, .subEaxIz, .subRm8Ib, .subRmvIz, .subRmvIbs⟩

def NineForms.sbb : NineForms :=
  ⟨.sbbRm8R8, .sbbRmvRv, .sbbR8Rm8, .sbbRvRmv, .sbbAlIb, .sbbEaxIz, .sbbRm8Ib, .sbbRmvIz, .sbbRmvIbs⟩

def NineForms.cmp : NineForms :=
  ⟨.cmpRm8R8, .cmpRmvRv, .cmpR8Rm8, .cmpRvRmv, .cmpAlIb, .cmpEaxIz, .cmpRm8Ib, .cmpRmvIz, .cmpRmvIbs⟩

def NineForms.and : NineForms :=
  ⟨.andRm8R8, .andRmvRv, .andR8Rm8, .andRvRmv, .andAlIb, .andEaxIz, .andRm8Ib, .andRmvIz, .andRmvIbs⟩

def NineForms.or : NineForms :=
  ⟨.orRm8R8, .orRmvRv, .orR8Rm8, .orRvRmv, .orAlIb, .orEaxIz, .orRm8Ib, .orRmvIz, .orRmvIbs⟩

def NineForms.xor : NineForms :=
  ⟨.xorRm8R8, .xorRmvRv, .xorR8Rm8, .xorRvRmv, .xorAlIb, .xorEaxIz, .xorRm8Ib, .xorRmvIz, .xorRmvIbs⟩

/-- What a two-operand instruction does: the result from dst and src, and the state with its flags. -/
abbrev Effect := (w : Size) → BitVec w.bits → BitVec w.bits → State → BitVec w.bits × State

/-- The state after dst at a location took the result of an effect on its value and b, EIP at the next instruction. -/
def State.apply (s : State) (e : Effect) (w : Size) (l : Loc) (b : BitVec w.bits) : State :=
  ((e w (s.locValue w l) b s).2.locStore w l (e w (s.locValue w l) b s).1).advanced

/-- The state after an effect whose result is discarded. -/
def State.compare (s : State) (e : Effect) (w : Size) (l : Loc) (b : BitVec w.bits) : State :=
  (e w (s.locValue w l) b s).2.advanced

/-- Page walks write nothing, and a location can be read and written. -/
def State.canUpdate (s : State) (w : Size) (l : Loc) : Bool :=
  s.plainWalks && s.locReadable w l && s.locWritable w l

/-- Page walks write nothing, and a location can be read. -/
def State.canRead (s : State) (w : Size) (l : Loc) : Bool :=
  s.plainWalks && s.locReadable w l

/-- Page walks write nothing, and a location can be written. -/
def State.canWrite (s : State) (w : Size) (l : Loc) : Bool :=
  s.plainWalks && s.locWritable w l

/-- Every form of an instruction reads both operands and writes the result to its destination (40_arithmetic R233). -/
def NineForms.Writes (f : NineForms) (e : Effect) : Prop :=
  (∀ s rm r, s.canUpdate .b8 (locate s rm) = true →
    exec (f.rm8R8 rm r) s = .next (s.apply e .b8 (locate s rm) (s.view .b8 r))) ∧
  (∀ s rm r, s.canUpdate s.ctx.osz (locate s rm) = true →
    exec (f.rmvRv rm r) s = .next (s.apply e s.ctx.osz (locate s rm) (s.view s.ctx.osz r))) ∧
  (∀ s r rm, s.canRead .b8 (locate s rm) = true →
    exec (f.r8Rm8 r rm) s = .next (s.apply e .b8 (.reg r) (s.locValue .b8 (locate s rm)))) ∧
  (∀ s r rm, s.canRead s.ctx.osz (locate s rm) = true →
    exec (f.rvRmv r rm) s = .next (s.apply e s.ctx.osz (.reg r) (s.locValue s.ctx.osz (locate s rm)))) ∧
  (∀ s ib, s.plainWalks = true → exec (f.alIb ib) s = .next (s.apply e .b8 (.reg .eax) ib)) ∧
  (∀ s iz, s.plainWalks = true →
    exec (f.eaxIz iz) s = .next (s.apply e s.ctx.osz (.reg .eax) (immIz s.ctx.osz iz))) ∧
  (∀ s rm ib, s.canUpdate .b8 (locate s rm) = true →
    exec (f.rm8Ib rm ib) s = .next (s.apply e .b8 (locate s rm) ib)) ∧
  (∀ s rm iz, s.canUpdate s.ctx.osz (locate s rm) = true →
    exec (f.rmvIz rm iz) s = .next (s.apply e s.ctx.osz (locate s rm) (immIz s.ctx.osz iz))) ∧
  (∀ s rm ib, s.canUpdate s.ctx.osz (locate s rm) = true →
    exec (f.rmvIbs rm ib) s = .next (s.apply e s.ctx.osz (locate s rm) (immIbs s.ctx.osz ib)))

/-- Every form of an instruction reads both operands and discards the result (40_arithmetic R238). -/
def NineForms.Compares (f : NineForms) (e : Effect) : Prop :=
  (∀ s rm r, s.canRead .b8 (locate s rm) = true →
    exec (f.rm8R8 rm r) s = .next (s.compare e .b8 (locate s rm) (s.view .b8 r))) ∧
  (∀ s rm r, s.canRead s.ctx.osz (locate s rm) = true →
    exec (f.rmvRv rm r) s = .next (s.compare e s.ctx.osz (locate s rm) (s.view s.ctx.osz r))) ∧
  (∀ s r rm, s.canRead .b8 (locate s rm) = true →
    exec (f.r8Rm8 r rm) s = .next (s.compare e .b8 (.reg r) (s.locValue .b8 (locate s rm)))) ∧
  (∀ s r rm, s.canRead s.ctx.osz (locate s rm) = true →
    exec (f.rvRmv r rm) s = .next (s.compare e s.ctx.osz (.reg r) (s.locValue s.ctx.osz (locate s rm)))) ∧
  (∀ s ib, s.plainWalks = true → exec (f.alIb ib) s = .next (s.compare e .b8 (.reg .eax) ib)) ∧
  (∀ s iz, s.plainWalks = true →
    exec (f.eaxIz iz) s = .next (s.compare e s.ctx.osz (.reg .eax) (immIz s.ctx.osz iz))) ∧
  (∀ s rm ib, s.canRead .b8 (locate s rm) = true →
    exec (f.rm8Ib rm ib) s = .next (s.compare e .b8 (locate s rm) ib)) ∧
  (∀ s rm iz, s.canRead s.ctx.osz (locate s rm) = true →
    exec (f.rmvIz rm iz) s = .next (s.compare e s.ctx.osz (locate s rm) (immIz s.ctx.osz iz))) ∧
  (∀ s rm ib, s.canRead s.ctx.osz (locate s rm) = true →
    exec (f.rmvIbs rm ib) s = .next (s.compare e s.ctx.osz (locate s rm) (immIbs s.ctx.osz ib)))

/-- CF as a value of a width. -/
def carry (w : Size) (s : State) : BitVec w.bits :=
  if s.flag .cf then 1 else 0

/-- ADD (40_arithmetic R234). -/
def effectAdd : Effect := fun _ a b s => (a + b, s.withFlags (addFlags a b false))

/-- ADC (40_arithmetic R235). -/
def effectAdc : Effect := fun w a b s => (a + b + carry w s, s.withFlags (addFlags a b (s.flag .cf)))

/-- SUB and CMP (40_arithmetic R236, R238). -/
def effectSub : Effect := fun _ a b s => (a - b, s.withFlags (subFlags a b false))

/-- SBB (40_arithmetic R237). -/
def effectSbb : Effect := fun w a b s => (a - b - carry w s, s.withFlags (subFlags a b (s.flag .cf)))

/-- A logic instruction with result r (41_logic_shift R260). -/
def State.logic {n : Nat} (s : State) (r : BitVec n) : State :=
  s.drawn.withFlags (logicFlags s.free r)

/-- AND and TEST (41_logic_shift R261, R265). -/
def effectAnd : Effect := fun _ a b s => (a &&& b, s.logic (a &&& b))

/-- OR (41_logic_shift R262). -/
def effectOr : Effect := fun _ a b s => (a ||| b, s.logic (a ||| b))

/-- XOR (41_logic_shift R263). -/
def effectXor : Effect := fun _ a b s => (a ^^^ b, s.logic (a ^^^ b))

/-! ### One-operand instructions, multiplication and division -/

/-- What a one-operand instruction does: the result from dst, and the state with its flags. -/
abbrev UnEffect := (w : Size) → BitVec w.bits → State → BitVec w.bits × State

/-- The state after dst at a location took the result of an effect on its value, EIP at the next instruction. -/
def State.update (s : State) (e : UnEffect) (w : Size) (l : Loc) : State :=
  ((e w (s.locValue w l) s).2.locStore w l (e w (s.locValue w l) s).1).advanced

/-- INC (40_arithmetic R239). -/
def effectInc : UnEffect := fun _ a s => (a + 1, s.withFlags (incFlags a))

/-- DEC (40_arithmetic R240). -/
def effectDec : UnEffect := fun _ a s => (a - 1, s.withFlags (decFlags a))

/-- NEG (40_arithmetic R241). -/
def effectNeg : UnEffect := fun w a s => (-a, s.withFlags (subFlags (0 : BitVec w.bits) a false))

/-- NOT (41_logic_shift R264): no flag changes. -/
def effectNot : UnEffect := fun _ a s => (~~~a, s)

/-- The accumulator pair written with a value of twice the width (40_arithmetic R242). -/
def State.setPair (s : State) (w : Size) (p : BitVec (w.bits + w.bits)) : State :=
  (s.setView w .eax (p.extractLsb' 0 w.bits)).setView w (highReg w) (p.extractLsb' w.bits w.bits)

/-- The state after MUL or one-operand IMUL with product p, big telling whether CF and OF are set (40_arithmetic R242,
R243). -/
def State.multiplied (s : State) (w : Size) (p : BitVec (w.bits + w.bits)) (big : Bool) : State :=
  ((s.setPair w p).drawn.withFlags (mulFlags s.free big)).advanced

/-- A number is a signed value of a width (40_arithmetic R244). -/
def fitsSigned (w : Size) (p : Int) : Bool :=
  decide (-(2 ^ (w.bits - 1)) ≤ p) && decide (p < 2 ^ (w.bits - 1))

/-- The state after IMUL with two or three operands and product p (40_arithmetic R244). -/
def State.imulStored (s : State) (w : Size) (r : Reg) (p : Int) : State :=
  ((s.setView w r (BitVec.ofInt w.bits p)).drawn.withFlags (mulFlags s.free (!fitsSigned w p))).advanced

/-- The state after DIV or IDIV with quotient q and remainder r (40_arithmetic R245, R246). -/
def State.divided (s : State) (w : Size) (q r : BitVec w.bits) : State :=
  (((s.setView w .eax q).setView w (highReg w) r).drawn.withFlags (undefinedFlags s.free)).advanced

/-- The step of an instruction that faults: its own effect is discarded and the exception taken, with the
instruction's own EIP saved (00_scope R16, 60_exceptions R496, R500). -/
def State.faulted (s : State) (vec : Byte) (err : Option Half) : Step :=
  deliverEvent vec .fault err s.eip s

/-- The step of an instruction whose access to a linear address its page walk does not allow: #PF with CR2 the address, or
the end of the run with the state before the instruction left (20_memory R82, R132, 00_scope R16). -/
def State.blockedStep (s : State) (acc : Access) (lin : Word) : Step :=
  match s.walkFault acc s.user lin with
  | some e => ({ s with cr2 := lin } : State).faulted 14 (some e)
  | none => .fault (.physicalOutOfRange s)

/-! ### Shifts -/

/-- The six forms of a shift or rotate (41_logic_shift R266). -/
structure ShiftForms where
  rm8Ib : RM → Byte → Instr
  rmvIb : RM → Byte → Instr
  rm8One : RM → Instr
  rmvOne : RM → Instr
  rm8Cl : RM → Instr
  rmvCl : RM → Instr

def ShiftForms.rol : ShiftForms :=
  ⟨.rolRm8Ib, .rolRmvIb, .rolRm8One, .rolRmvOne, .rolRm8Cl, .rolRmvCl⟩

def ShiftForms.ror : ShiftForms :=
  ⟨.rorRm8Ib, .rorRmvIb, .rorRm8One, .rorRmvOne, .rorRm8Cl, .rorRmvCl⟩

def ShiftForms.rcl : ShiftForms :=
  ⟨.rclRm8Ib, .rclRmvIb, .rclRm8One, .rclRmvOne, .rclRm8Cl, .rclRmvCl⟩

def ShiftForms.rcr : ShiftForms :=
  ⟨.rcrRm8Ib, .rcrRmvIb, .rcrRm8One, .rcrRmvOne, .rcrRm8Cl, .rcrRmvCl⟩

def ShiftForms.shl : ShiftForms :=
  ⟨.shlRm8Ib, .shlRmvIb, .shlRm8One, .shlRmvOne, .shlRm8Cl, .shlRmvCl⟩

def ShiftForms.shr : ShiftForms :=
  ⟨.shrRm8Ib, .shrRmvIb, .shrRm8One, .shrRmvOne, .shrRm8Cl, .shrRmvCl⟩

def ShiftForms.sar : ShiftForms :=
  ⟨.sarRm8Ib, .sarRmvIb, .sarRm8One, .sarRmvOne, .sarRm8Cl, .sarRmvCl⟩

/-- A location can be shifted by a count: it is read, and written if the effective count is not 0 (41_logic_shift
R266). -/
def State.canShift (s : State) (w : Size) (l : Loc) (count : Nat) : Bool :=
  s.plainWalks && s.locReadable w l && (count % 32 == 0 || s.locWritable w l)

/-- The state after a shift or rotate by a count, masked to five bits (41_logic_shift R266). -/
def State.shifted (s : State) (op : ShiftOp) (w : Size) (l : Loc) (count : Nat) : State :=
  if count % 32 = 0 then s.advanced
  else
    ((s.drawn.withFlags (shiftFlags op s.free (s.locValue w l) (count % 32))).locStore w l
      (shiftResult op (s.locValue w l) (count % 32) (s.flag .cf))).advanced

/-- Every form of a shift or rotate runs (41_logic_shift R266). -/
def ShiftForms.Runs (f : ShiftForms) (op : ShiftOp) : Prop :=
  (∀ s rm ib, s.canShift .b8 (locate s rm) ib.toNat = true →
    exec (f.rm8Ib rm ib) s = .next (s.shifted op .b8 (locate s rm) ib.toNat)) ∧
  (∀ s rm ib, s.canShift s.ctx.osz (locate s rm) ib.toNat = true →
    exec (f.rmvIb rm ib) s = .next (s.shifted op s.ctx.osz (locate s rm) ib.toNat)) ∧
  (∀ s rm, s.canShift .b8 (locate s rm) 1 = true →
    exec (f.rm8One rm) s = .next (s.shifted op .b8 (locate s rm) 1)) ∧
  (∀ s rm, s.canShift s.ctx.osz (locate s rm) 1 = true →
    exec (f.rmvOne rm) s = .next (s.shifted op s.ctx.osz (locate s rm) 1)) ∧
  (∀ s rm, s.canShift .b8 (locate s rm) (s.view .b8 .ecx).toNat = true →
    exec (f.rm8Cl rm) s = .next (s.shifted op .b8 (locate s rm) (s.view .b8 .ecx).toNat)) ∧
  (∀ s rm, s.canShift s.ctx.osz (locate s rm) (s.view .b8 .ecx).toNat = true →
    exec (f.rmvCl rm) s = .next (s.shifted op s.ctx.osz (locate s rm) (s.view .b8 .ecx).toNat))

/-- The state after SHLD or SHRD by a count (41_logic_shift R274, R275): a count above the width leaves the destination
and the flags free. -/
def State.doubleShifted (s : State) (left : Bool) (w : Size) (l : Loc) (b : BitVec w.bits) (count : Nat) : State :=
  if count % 32 = 0 then s.advanced
  else if w.bits < count % 32 then
    ((s.drawn.drawn.withFlags (undefinedFlags s.drawn.free)).locStore w l (s.free.setWidth w.bits)).advanced
  else
    ((s.drawn.withFlags (doubleShiftFlags left s.free (s.locValue w l) b (count % 32))).locStore w l
      (doubleShiftResult left (s.locValue w l) b (count % 32))).advanced

/-! ### Strings and ports -/

/-- A repeat prefix is present and the count is 0: the instruction does nothing (42_string_io R301). -/
def State.repeatEmpty (s : State) : Bool :=
  repeatOf s.ctx.pfx .none != .none && indexValue s .ecx == 0

/-- The state after a string step whose element left the state t (42_string_io R301). -/
def State.stringDone (s t : State) (zterm : Bool) : State :=
  match repeatOf s.ctx.pfx .none with
  | .none => t.advanced
  | kind => if repeatStops kind zterm t.countDown then t.countDown.advanced else t.countDown

/-- An index register moved past one element (42_string_io R300). -/
def State.stepIndex (s : State) (w : Size) (r : Reg) : State :=
  s.setIndex r (indexValue s r + indexDelta s w)

/-- The segment of an operand whose default segment is DS: a string source, a moffs operand, XLAT (30_encoding R176). -/
def State.sourceSeg (s : State) : SReg :=
  segmentOr s.ctx .ds

/-- The source element can be read (42_string_io R300). -/
def State.canSource (s : State) (w : Size) : Bool :=
  s.readable s.sourceSeg (indexValue s .esi) w.bytes

/-- The source element (42_string_io R300). -/
def State.source (s : State) (w : Size) : BitVec w.bits :=
  BitVec.ofNat w.bits (s.loadFrom s.sourceSeg (indexValue s .esi) w.bytes)

/-- The destination element can be read (42_string_io R300). -/
def State.canDestRead (s : State) (w : Size) : Bool :=
  s.readable .es (indexValue s .edi) w.bytes

/-- The destination element can be written (42_string_io R300). -/
def State.canDestWrite (s : State) (w : Size) : Bool :=
  s.writable .es (indexValue s .edi) w.bytes

/-- The destination element (42_string_io R300). -/
def State.dest (s : State) (w : Size) : BitVec w.bits :=
  BitVec.ofNat w.bits (s.loadFrom .es (indexValue s .edi) w.bytes)

/-- The state with the destination element stored (42_string_io R300). -/
def State.storeDest (s : State) (w : Size) (v : BitVec w.bits) : State :=
  s.storeTo .es (indexValue s .edi) w.bytes v.toNat

/-- A string instruction runs: nothing with an empty count, else one element, whose conditions and effect are given
(42_string_io R301). -/
def StringRuns (i : Instr) (can : State → Bool) (element : State → State) (zterm : Bool) : Prop :=
  ∀ s, s.plainWalks = true →
    (s.repeatEmpty = true → exec i s = .next s.advanced) ∧
    (s.repeatEmpty = false → can s = true → exec i s = .next (s.stringDone (element s) zterm))

/-- One 8- or 16-bit port read: a free value from a mapped device, all ones from the default handler (42_string_io
R318). -/
def State.portValue (s : State) (port : Half) (w : Size) : Word :=
  if s.params.portHandlers.contains port then s.free &&& BitVec.ofNat 32 (2 ^ w.bits - 1)
  else BitVec.ofNat 32 (2 ^ w.bits - 1)

/-- The state after that read: the call of a mapped device is recorded (42_string_io R318). -/
def State.portTouched (s : State) (port : Half) (w : Size) : State :=
  if s.params.portHandlers.contains port then
    { s.drawn with events := s.events ++ [.portRead port w.bits (s.portValue port w)] }
  else s

/-- What PortIn(port, w) returns: two word reads for 32 bits, low half first (42_string_io R318). -/
def State.inValue (s : State) (port : Half) (w : Size) : BitVec w.bits :=
  match w with
  | .b32 =>
    ((s.portTouched port .b16).portValue (port + 2) .b16).extractLsb' 0 16 ++ (s.portValue port .b16).extractLsb' 0 16
  | .b16 => (s.portValue port .b16).setWidth 16
  | .b8 => (s.portValue port .b8).setWidth 8

/-- The state after PortIn(port, w) (42_string_io R318). -/
def State.portsRead (s : State) (port : Half) (w : Size) : State :=
  match w with
  | .b32 => (s.portTouched port .b16).portTouched (port + 2) .b16
  | w => s.portTouched port w

/-- One 8- or 16-bit port write: only a mapped device is called (42_string_io R318). -/
def State.portWritten (s : State) (port : Half) (w : Size) (v : Word) : State :=
  if s.params.portHandlers.contains port then { s with events := s.events ++ [.portWrite port w.bits v] } else s

/-- The state after PortOut(port, w, v) (42_string_io R318). -/
def State.portsWritten (s : State) (port : Half) (w : Size) (v : BitVec w.bits) : State :=
  match w, v with
  | .b32, v =>
    (s.portWritten port .b16 ((v.extractLsb' 0 16).setWidth 32)).portWritten (port + 2) .b16
      ((v.extractLsb' 16 16).setWidth 32)
  | .b16, v => s.portWritten port .b16 (v.setWidth 32)
  | .b8, v => s.portWritten port .b8 (v.setWidth 32)

/-- IN runs with the port that an operand gives (42_string_io R320). -/
def InRuns (i : Instr) (w : State → Size) (port : State → Half) : Prop :=
  ∀ s, s.plainWalks = true → s.ioPriv = true →
    exec i s = .next ((s.portsRead (port s) (w s)).setView (w s) .eax (s.inValue (port s) (w s))).advanced

/-- OUT runs with the port that an operand gives (42_string_io R321). -/
def OutRuns (i : Instr) (w : State → Size) (port : State → Half) : Prop :=
  ∀ s, s.plainWalks = true → s.ioPriv = true →
    exec i s = .next (s.portsWritten (port s) (w s) (s.view (w s) .eax)).advanced

/-! ### The stack -/

/-- Push of n bytes succeeds (43_stack R330). -/
def State.canPush (s : State) (n : Nat) : Bool :=
  s.writable .ss (s.movedPointer (- BitVec.ofNat 32 n)) n

/-- The state after a push (43_stack R330). -/
def State.pushed (s : State) (n v : Nat) : State :=
  let t := s.movedPointer (- BitVec.ofNat 32 n)
  (s.storeTo .ss t n v).setStackPointer t

/-- Several pushes succeed, one after the other. -/
def State.canPushes (s : State) (n : Nat) : List Nat → Bool
  | [] => true
  | v :: vs => s.canPush n && (s.pushed n v).canPushes n vs

/-- The state after several pushes. -/
def State.pushes (s : State) (n : Nat) : List Nat → State
  | [] => s
  | v :: vs => (s.pushed n v).pushes n vs

/-- Pop of n bytes succeeds (43_stack R331). -/
def State.canPop (s : State) (n : Nat) : Bool :=
  s.readable .ss s.stackPointer n

/-- The n bytes on top of the stack (43_stack R331). -/
def State.top (s : State) (n : Nat) : Nat :=
  s.loadFrom .ss s.stackPointer n

/-- The state after a pop (43_stack R331). -/
def State.popped (s : State) (n : Nat) : State :=
  s.setStackPointer (s.movedPointer (BitVec.ofNat 32 n))

/-- The state after a pop into a register (43_stack R337). -/
def State.poppedInto (s : State) (w : Size) (r : Reg) : State :=
  (s.popped w.bytes).setView w r (BitVec.ofNat w.bits (s.top w.bytes))

/-- Pops into registers, none for a value that is discarded, succeed one after the other (43_stack R341). -/
def State.canPopList (s : State) (w : Size) : List (Option Reg) → Bool
  | [] => true
  | some r :: rs => s.canPop w.bytes && (s.poppedInto w r).canPopList w rs
  | none :: rs => s.canPop w.bytes && (s.popped w.bytes).canPopList w rs

/-- The state after pops into registers (43_stack R341). -/
def State.poppedList (s : State) (w : Size) : List (Option Reg) → State
  | [] => s
  | some r :: rs => (s.poppedInto w r).poppedList w rs
  | none :: rs => (s.popped w.bytes).poppedList w rs

/-- The order of POPA (43_stack R341). -/
def popaOrder : List (Option Reg) :=
  [some .edi, some .esi, some .ebp, none, some .ebx, some .edx, some .ecx, some .eax]

/-- The state with iw bytes of stack released (46_control_transfer R440). -/
def State.released (s : State) (iw : Half) : State :=
  s.setStackPointer (s.movedPointer (iw.setWidth 32))

/-- The state after the image of a selector is made for a push of n bytes: a draw for a 32-bit slot (43_stack R336). -/
def State.imaged (s : State) (n : Nat) : State :=
  if n = 4 then s.drawn else s

/-- The image of a selector in a slot of n bytes: its upper half is free in a 32-bit slot (43_stack R336). -/
def State.selValue (s : State) (n : Nat) (sel : Half) : Nat :=
  if n = 4 then (s.free.extractLsb' 16 16 ++ sel).toNat else sel.toNat

/-! ### Descriptors -/

/-- The linear address of a selector's descriptor (20_memory R105). -/
def State.descAt (s : State) (sel : Half) : Word :=
  s.tableBase sel + BitVec.ofNat 32 (tableOffset sel)

/-- ReadDescriptor succeeds (20_memory R105). -/
def State.hasDesc (s : State) (sel : Half) : Bool :=
  (!sel.getLsbD 2 || s.ldtr.valid) && decide (tableOffset sel + 7 ≤ s.tableLimit sel) && s.backed .read false (s.descAt sel) 8

/-- The descriptor of a selector (20_memory R105). -/
def State.desc (s : State) (sel : Half) : Desc :=
  BitVec.ofNat 64 (s.valueAt false (s.descAt sel) 8)

/-- The state after the write-back of descriptor byte 5, if DESCRIPTOR_WRITEBACK (20_memory R106). -/
def State.marked (s : State) (sel : Half) (d : Desc) (mask : Byte) : State :=
  if s.params.descriptorWriteback then
    s.storeAt false (s.tableBase sel + BitVec.ofNat 32 (tableOffset sel + 5)) 1 (d.access ||| mask).toNat
  else s

/-- That write-back succeeds, if it is made (20_memory R106). -/
def State.canMark (s : State) (sel : Half) : Bool :=
  !s.params.descriptorWriteback ||
    s.backed .write false (s.tableBase sel + BitVec.ofNat 32 (tableOffset sel + 5)) 1

/-- The checks of LoadDataSeg on a descriptor (20_memory R106). -/
def State.dataOk (s : State) (sel : Half) (d : Desc) : Bool :=
  d.s && (!d.rights.code || d.rights.readWrite) &&
    ((d.rights.code && d.rights.conforming) || (decide (rpl sel ≤ d.dpl) && decide (s.cpl ≤ d.dpl))) && d.present

/-- The checks of LoadSS on a descriptor (20_memory R107). -/
def State.stackOk (s : State) (sel : Half) (d : Desc) : Bool :=
  (rpl sel == s.cpl) && (d.s && d.rights.writable) && (d.dpl == s.cpl) && d.present

/-- A segment register other than CS can be loaded with a selector (20_memory R104, R106, R107). -/
def State.canLoad (s : State) (r : SReg) (sel : Half) : Bool :=
  !s.pe ||
    (if r = .ss then !isNull sel && s.hasDesc sel && s.stackOk sel (s.desc sel) && s.canMark sel
     else isNull sel || (s.hasDesc sel && s.dataOk sel (s.desc sel) && s.canMark sel))

/-- The state after that load (20_memory R104, R106, R107). -/
def State.loaded (s : State) (r : SReg) (sel : Half) : State :=
  if !s.pe then s.setSeg r (realSegment (s.seg r) sel)
  else if r ≠ .ss ∧ isNull sel = true then s.setSeg r { s.seg r with sel := sel, valid := false }
  else (s.setSeg r ((s.desc sel).segment sel)).marked sel (s.desc sel) 1

/-- The checks of a far transfer on a descriptor (46_control_transfer R445). -/
def State.codeOk (s : State) (sel : Half) (off : Word) (d : Desc) : Bool :=
  d.s && d.rights.code &&
    (if d.rights.conforming then decide (d.dpl ≤ s.cpl) else decide (rpl sel ≤ s.cpl) && d.dpl == s.cpl) &&
    d.present && decide (off.toNat ≤ d.byteLimit.toNat)

/-- A far JMP or CALL to a code segment passes its checks, before its pushes and its write-back (46_control_transfer
R445). -/
def State.canFar (s : State) (osz : Size) (sel : Half) (off : Word) : Bool :=
  if s.pe then !isNull sel && s.hasDesc sel && s.codeOk sel (truncTarget osz off) (s.desc sel)
  else decide ((truncTarget osz off).toNat ≤ s.segs.cs.limit.toNat)

/-- The state after CS and EIP are loaded by a far JMP or CALL, x being the state after its pushes
(46_control_transfer R445). -/
def State.farLoaded (s x : State) (osz : Size) (sel : Half) (off : Word) : State :=
  if s.pe then
    ({ x.setSeg .cs ((s.desc sel).segment (withRpl sel s.cpl)) with eip := truncTarget osz off }).marked sel
      (s.desc sel) 1
  else { x.setSeg .cs (realSegment x.segs.cs sel) with eip := truncTarget osz off }

/-- The checks of a far return to the same level on a descriptor (46_control_transfer R450). -/
def State.returnCodeOk (sel : Half) (off : Word) (d : Desc) : Bool :=
  (d.s && d.rights.code) &&
    (if d.rights.conforming then decide (d.dpl ≤ rpl sel) else d.dpl == rpl sel) && d.present &&
    decide (off.toNat ≤ d.byteLimit.toNat)

/-- A far return in real mode, or to the same level in protected mode, passes its checks (46_control_transfer R448,
R450). -/
def State.canReturn (s : State) (osz : Size) (sel : Half) (off : Word) : Bool :=
  if s.pe then
    !isNull sel && rpl sel == s.cpl && s.hasDesc sel && State.returnCodeOk sel (truncTarget osz off) (s.desc sel)
  else decide ((truncTarget osz off).toNat ≤ s.segs.cs.limit.toNat)

/-- The state after such a return (46_control_transfer R448, R450). -/
def State.returned (s : State) (osz : Size) (sel : Half) (off : Word) (iw : Half) : State :=
  let x := s.released iw
  if s.pe then { x.setSeg .cs ((s.desc sel).segment sel) with eip := truncTarget osz off }
  else { x.setSeg .cs (realSegment x.segs.cs sel) with eip := truncTarget osz off }

/-- The outer stack segment that a return has popped is usable at a level (46_control_transfer R449). -/
def State.outerStackOk (s : State) (sel : Half) (lvl : BitVec 2) : Bool :=
  !isNull sel && s.hasDesc sel && rpl sel == lvl && (s.desc sel).s && (s.desc sel).rights.writable &&
    (s.desc sel).dpl == lvl && (s.desc sel).present

/-- A far return to an outer level passes its checks, s being the state after the pops of EIP and CS
(46_control_transfer R450). -/
def State.canReturnOut (s : State) (osz : Size) (sel : Half) (off : Word) (iw : Half) : Bool :=
  let x := s.released iw
  let y := x.popped osz.bytes
  s.pe && !isNull sel && decide (s.cpl < rpl sel) && s.hasDesc sel &&
    State.returnCodeOk sel (truncTarget osz off) (s.desc sel) && x.canPop osz.bytes && y.canPop osz.bytes &&
    (y.popped osz.bytes).outerStackOk (BitVec.ofNat 16 (y.top osz.bytes)) (rpl sel)

/-- The stack pointer of the outer level: with a 16-bit operand size its upper half is free (46_control_transfer
R450). -/
def State.outerPointer (s : State) (osz : Size) (v : Nat) : State :=
  if osz = .b32 then s.setReg .esp (BitVec.ofNat 32 v)
  else s.drawn.setReg .esp (s.free.extractLsb' 16 16 ++ BitVec.ofNat 16 v)

/-- ES, DS, FS and GS become null where they are too privileged for a level (46_control_transfer R451). -/
def State.nulled (s : State) (lvl : BitVec 2) : State :=
  let null (g : Segment) : Segment :=
    if g.valid && (!g.ar.code || !g.ar.conforming) && decide (g.ar.dpl < lvl) then { g with sel := 0, valid := false }
    else g
  { s with
    segs :=
      { s.segs with es := null s.segs.es, ds := null s.segs.ds, fs := null s.segs.fs, gs := null s.segs.gs } }

/-- The state after a far return to an outer level (46_control_transfer R450). -/
def State.returnedOut (s : State) (osz : Size) (sel : Half) (off : Word) (iw : Half) : State :=
  let x := s.released iw
  let y := x.popped osz.bytes
  let z := y.popped osz.bytes
  let ss := BitVec.ofNat 16 (y.top osz.bytes)
  let cs := { z.setSeg .cs ((s.desc sel).segment sel) with eip := truncTarget osz off }
  (((cs.setSeg .ss ((z.desc ss).segment ss)).outerPointer osz (x.top osz.bytes)).released iw).nulled (rpl sel)

/-- A far return passes its checks, to whatever level (46_control_transfer R448, R450). -/
def State.canFarReturn (s : State) (osz : Size) (sel : Half) (off : Word) (iw : Half) : Bool :=
  s.canReturn osz sel off || s.canReturnOut osz sel off iw

/-- The state after it (46_control_transfer R448, R450). -/
def State.farReturned (s : State) (osz : Size) (sel : Half) (off : Word) (iw : Half) : State :=
  if s.pe && decide (s.cpl < rpl sel) then s.returnedOut osz sel off iw else s.returned osz sel off iw

/-- The pushes of a far CALL: CS, then the return address (46_control_transfer R447). -/
def State.returnPushed (s : State) (n : Nat) : State :=
  ((s.imaged n).pushed n (s.selValue n s.segs.cs.sel)).pushed n s.nextEip.toNat

/-- Those pushes succeed (46_control_transfer R447). -/
def State.canPushReturn (s : State) (n : Nat) : Bool :=
  (s.imaged n).canPush n && ((s.imaged n).pushed n (s.selValue n s.segs.cs.sel)).canPush n

/-- The offset of a far pointer read as one number (46_control_transfer R446). -/
def farOffset (osz : Size) (p : Nat) : Word :=
  BitVec.ofNat 32 (p % 2 ^ osz.bits)

/-- The selector of a far pointer read as one number (46_control_transfer R446). -/
def farSelector (osz : Size) (p : Nat) : Half :=
  BitVec.ofNat 16 (p / 2 ^ osz.bits)

/-- A near target lies in the code segment (46_control_transfer R430). -/
def State.canNear (s : State) (osz : Size) (t : Word) : Bool :=
  decide ((truncTarget osz t).toNat ≤ s.segs.cs.limit.toNat)

/-- The state after a near transfer (46_control_transfer R430). -/
def State.jumped (s : State) (osz : Size) (t : Word) : State :=
  { s with eip := truncTarget osz t }

/-- The state after a conditional near transfer (46_control_transfer R433). -/
def State.branched (s : State) (b : Bool) (osz : Size) (t : Word) : State :=
  if b then s.jumped osz t else s.advanced

/-! ### System registers -/

/-- The contents LGDT and LIDT load from a 6-byte operand read as one number (44_protected_mode R361). -/
def pseudoOf (osz : Size) (p : Nat) : TableReg :=
  { base := if osz = .b32 then BitVec.ofNat 32 (p / 65536) else BitVec.ofNat 32 (p / 65536 % 2 ^ 24)
    limit := BitVec.ofNat 16 p }

/-- The six bytes SGDT and SIDT store (44_protected_mode R363): the last one is free with a 16-bit operand size. -/
def State.pseudoImage (s : State) (osz : Size) (t : TableReg) : BitVec 48 :=
  (if osz = .b32 then t.base.extractLsb' 24 8 else s.free.extractLsb' 24 8) ++ t.base.extractLsb' 0 24 ++ t.limit

/-- The state after SGDT or SIDT to an address (44_protected_mode R363). -/
def State.tableStored (s : State) (osz : Size) (g : SReg) (off : Word) (t : TableReg) : State :=
  ((if osz = .b32 then s else s.drawn).storeTo g off 6 (s.pseudoImage osz t).toNat).advanced

/-- The state after a 16-bit system value is stored: the upper half of a 32-bit register is free (44_protected_mode
R367, R372, R381). -/
def State.halfStored (s : State) (osz : Size) (l : Loc) (v : Half) : State :=
  match l with
  | .mem g off => (s.storeTo g off 2 v.toNat).advanced
  | .reg r =>
    if osz = .b32 then (s.drawn.setReg r (s.free.extractLsb' 16 16 ++ v)).advanced else (s.setView .b16 r v).advanced

/-- The state with the six status flags free (44_protected_mode R370). -/
def State.clobbered (s : State) : State :=
  s.drawn.withFlags (undefinedFlags s.free)

/-- LLDT can load a selector (44_protected_mode R365). -/
def State.canLdt (s : State) (sel : Half) : Bool :=
  isNull sel ||
    (!sel.getLsbD 2 && s.hasDesc sel && !(s.desc sel).s && (s.desc sel).type == 2 && (s.desc sel).present)

/-- LDTR after LLDT (44_protected_mode R365). -/
def State.ldtOf (s : State) (sel : Half) : LdtReg :=
  if isNull sel then { sel := sel, base := 0, limit := 0, valid := false }
  else { sel := sel, base := (s.desc sel).base, limit := (s.desc sel).byteLimit, valid := true }

/-- LTR can load a selector (44_protected_mode R366). -/
def State.canTask (s : State) (sel : Half) : Bool :=
  !isNull sel && !sel.getLsbD 2 && s.hasDesc sel && !(s.desc sel).s &&
    ((s.desc sel).type == 1 || (s.desc sel).type == 9) && (s.desc sel).present && s.canMark sel

/-- TR after LTR (44_protected_mode R366). -/
def State.taskOf (s : State) (sel : Half) : TaskReg :=
  { sel := sel
    base := (s.desc sel).base
    limit := (s.desc sel).byteLimit
    valid := true
    is32 := (s.desc sel).type == 9 }

/-! ### Taking an exception -/

/-- The entry of a vector in the real-mode table (60_exceptions R501). -/
def State.vectorEntry (s : State) (vec : Byte) : Word :=
  BitVec.ofNat 32 (s.valueAt false (s.idtr.base + BitVec.ofNat 32 (vec.toNat * 4)) 4)

/-- The frame of a real-mode delivery, in push order (60_exceptions R501, R504). -/
def State.vectorFrame (s : State) (ret : Word) : List Nat :=
  [(s.eflags.extractLsb' 0 16).toNat, s.segs.cs.sel.toNat, (ret.extractLsb' 0 16).toNat]

/-- A real-mode delivery succeeds (60_exceptions R501). -/
def State.canVector (s : State) (vec : Byte) (ret : Word) : Bool :=
  !s.pe && decide (vec.toNat * 4 + 3 ≤ s.idtr.limit.toNat) &&
    s.backed .read false (s.idtr.base + BitVec.ofNat 32 (vec.toNat * 4)) 4 &&
    s.canPushes 2 (s.vectorFrame ret) &&
    decide (((s.vectorEntry vec).extractLsb' 0 16).toNat ≤ s.segs.cs.limit.toNat)

/-- The state at the handler of a real-mode delivery (60_exceptions R501, R505). -/
def State.vectored (s : State) (vec : Byte) (ret : Word) : State :=
  let x := s.pushes 2 (s.vectorFrame ret)
  { x.setSeg .cs (realSegment s.segs.cs ((s.vectorEntry vec).extractLsb' 16 16)) with
    eip := ((s.vectorEntry vec).extractLsb' 0 16).setWidth 32
    eflags := setFlag .intf false (setFlag .tf false s.eflags)
    activity := .running
    tfAtStart := false }

/-- The gate of a vector (60_exceptions R502). -/
def State.gate (s : State) (vec : Byte) : Desc :=
  BitVec.ofNat 64 (s.valueAt false (s.idtr.base + BitVec.ofNat 32 (vec.toNat * 8)) 8)

/-- The gate of a vector passes its checks (60_exceptions R502): an interrupt or trap gate, present, and open to a
software interrupt of this level. -/
def State.gateOk (s : State) (vec : Byte) (src : Source) : Bool :=
  decide (vec.toNat * 8 + 7 ≤ s.idtr.limit.toNat) &&
    s.backed .read false (s.idtr.base + BitVec.ofNat 32 (vec.toNat * 8)) 8 &&
    !(s.gate vec).s && (s.gate vec).present &&
    ((s.gate vec).type == 6 || (s.gate vec).type == 7 || (s.gate vec).type == 14 || (s.gate vec).type == 15) &&
    (!(src == .softInt || s.params.gateDplCheckAllSources) || decide (s.cpl ≤ (s.gate vec).dpl))

/-- The handler of a vector passes its checks (60_exceptions R502). -/
def State.handlerOk (s : State) (vec : Byte) : Bool :=
  let sel := (s.gate vec).gateSelector
  let d := s.desc sel
  !isNull sel && s.hasDesc sel && d.s && d.rights.code && decide (d.dpl ≤ s.cpl) && d.present &&
    decide (((s.gate vec).gateOffset ((s.gate vec).type.getLsbD 3)).toNat ≤ d.byteLimit.toNat)

/-- The handler runs at the interrupted level (60_exceptions R502). -/
def State.sameLevel (s : State) (vec : Byte) : Bool :=
  let d := s.desc (s.gate vec).gateSelector
  d.rights.conforming || d.dpl == s.cpl

/-- Bytes of each pushed item of a gate (60_exceptions R502). -/
def State.gateBytes (s : State) (vec : Byte) : Nat :=
  if (s.gate vec).type.getLsbD 3 then 4 else 2

/-- The error code, if one is pushed (60_exceptions R482). -/
def errorItems (vec : Byte) (src : Source) (err : Option Half) : List Nat :=
  if src = .fault ∧ (vec = 10 ∨ vec = 11 ∨ vec = 12 ∨ vec = 13 ∨ vec = 14) then [(err.getD 0).toNat] else []

/-- The frame that every gate delivery pushes, in order (60_exceptions R502, R504): old EFLAGS, CS, EIP, and the error code;
u is the state whose next free value fills the upper half of a 32-bit CS image. -/
def State.gateFrame (s u : State) (vec : Byte) (src : Source) (err : Option Half) (ret : Word) : List Nat :=
  [s.eflags.toNat, u.selValue (s.gateBytes vec) s.segs.cs.sel, ret.toNat] ++ errorItems vec src err

/-- Control at the handler of a gate, x being the state after the pushes (60_exceptions R502, R505). -/
def State.atHandler (s x : State) (vec : Byte) : State :=
  { x with
    eip := (s.gate vec).gateOffset ((s.gate vec).type.getLsbD 3)
    eflags :=
      (if (s.gate vec).type = 6 ∨ (s.gate vec).type = 14 then setFlag .intf false else id)
        (setFlag .tf false (setFlag .nt false s.eflags))
    activity := .running
    tfAtStart := false }

/-- CS at the handler of a vector, at a level (60_exceptions R502). -/
def State.handlerCs (s : State) (vec : Byte) (lvl : BitVec 2) : Segment :=
  (s.desc (s.gate vec).gateSelector).segment (withRpl (s.gate vec).gateSelector lvl)

/-- The state in which a same-level delivery pushes (60_exceptions R502). -/
def State.levelEntered (s : State) (vec : Byte) : State :=
  (s.setSeg .cs (s.handlerCs vec s.cpl)).imaged (s.gateBytes vec)

/-- A delivery through a gate to the same level succeeds (60_exceptions R502). -/
def State.canGate (s : State) (vec : Byte) (src : Source) (err : Option Half) (ret : Word) : Bool :=
  s.pe && s.gateOk vec src && s.handlerOk vec && s.sameLevel vec &&
    (s.levelEntered vec).canPushes (s.gateBytes vec) (s.gateFrame s vec src err ret)

/-- The state at the handler after it (60_exceptions R502). -/
def State.gated (s : State) (vec : Byte) (src : Source) (err : Option Half) (ret : Word) : State :=
  s.atHandler ((s.levelEntered vec).pushes (s.gateBytes vec) (s.gateFrame s vec src err ret)) vec

/-- The offset in the TSS of the stack pointer of a level, and its bytes (20_memory R115). -/
def State.tssAt (s : State) (lvl : BitVec 2) : Nat × Nat :=
  if s.tr.is32 then (8 * lvl.toNat + 4, 4) else (4 * lvl.toNat + 2, 2)

/-- The stack pointer of a level in the TSS (20_memory R115). -/
def State.tssPointer (s : State) (lvl : BitVec 2) : Word :=
  BitVec.ofNat 32 (s.valueAt false (s.tr.base + BitVec.ofNat 32 (s.tssAt lvl).1) (s.tssAt lvl).2)

/-- The stack selector of a level in the TSS (20_memory R115). -/
def State.tssStackSel (s : State) (lvl : BitVec 2) : Half :=
  BitVec.ofNat 16 (s.valueAt false (s.tr.base + BitVec.ofNat 32 ((s.tssAt lvl).1 + (s.tssAt lvl).2)) 2)

/-- The TSS gives a usable stack for a level (20_memory R115, 46_control_transfer R449, 60_exceptions R503). -/
def State.canSwitch (s : State) (lvl : BitVec 2) : Bool :=
  let sel := s.tssStackSel lvl
  let d := s.desc sel
  s.tr.valid && decide ((s.tssAt lvl).1 + (s.tssAt lvl).2 + 1 ≤ s.tr.limit.toNat) &&
    s.backed .read false (s.tr.base + BitVec.ofNat 32 (s.tssAt lvl).1) (s.tssAt lvl).2 &&
    s.backed .read false (s.tr.base + BitVec.ofNat 32 ((s.tssAt lvl).1 + (s.tssAt lvl).2)) 2 &&
    !isNull sel && s.hasDesc sel && rpl sel == lvl && d.s && d.rights.writable && d.dpl == lvl && d.present

/-- The state in which a delivery to an inner level pushes (60_exceptions R502, R503). -/
def State.innerEntered (s : State) (vec : Byte) : State :=
  let lvl := (s.desc (s.gate vec).gateSelector).dpl
  let sel := s.tssStackSel lvl
  ((((s.setSeg .ss ((s.desc sel).segment sel)).setReg .esp (s.tssPointer lvl)).setSeg .cs (s.handlerCs vec lvl)).imaged
    (s.gateBytes vec)).imaged (s.gateBytes vec)

/-- The frame of a delivery to an inner level: the old SS and ESP first (60_exceptions R502, R504). -/
def State.innerFrame (s : State) (vec : Byte) (src : Source) (err : Option Half) (ret : Word) : List Nat :=
  [s.selValue (s.gateBytes vec) s.segs.ss.sel, s.regs.esp.toNat] ++
    s.gateFrame (s.imaged (s.gateBytes vec)) vec src err ret

/-- A delivery through a gate to an inner level succeeds (60_exceptions R502, R503). -/
def State.canGateInner (s : State) (vec : Byte) (src : Source) (err : Option Half) (ret : Word) : Bool :=
  s.pe && s.gateOk vec src && s.handlerOk vec && !s.sameLevel vec &&
    s.canSwitch (s.desc (s.gate vec).gateSelector).dpl &&
    (s.innerEntered vec).canPushes (s.gateBytes vec) (s.innerFrame vec src err ret)

/-- The state at the handler after it (60_exceptions R502, R503). -/
def State.gatedInner (s : State) (vec : Byte) (src : Source) (err : Option Half) (ret : Word) : State :=
  s.atHandler ((s.innerEntered vec).pushes (s.gateBytes vec) (s.innerFrame vec src err ret)) vec

/-- An event is delivered: in real mode, through a gate to the same level, or to an inner one (60_exceptions R501,
R502). -/
def State.canDeliver (s : State) (vec : Byte) (src : Source) (err : Option Half) (ret : Word) : Bool :=
  s.plainWalks && (s.canVector vec ret || s.canGate vec src err ret || s.canGateInner vec src err ret)

/-- The state at the handler of a delivered event (60_exceptions R501, R502). -/
def State.delivered (s : State) (vec : Byte) (src : Source) (err : Option Half) (ret : Word) : State :=
  if !s.pe then s.vectored vec ret else if s.sameLevel vec then s.gated vec src err ret else s.gatedInner vec src err ret

/-- At this boundary the core fetches an instruction: no fatal reason is latched, no interrupt is taken, the core is not
halted and CS:EIP lies in no callback slot (60_exceptions R496). -/
def State.fetches (s : State) : Bool :=
  s.fatal == none && !(s.flag .intf && !s.pendingIrq.isEmpty) && s.activity == .running &&
    (match fetchAddress s.eip s with
     | .ok (p, _) => !s.params.callbackSlots.contains p
     | .error _ => true)

/-- INT n is not taken by a host handler (46_control_transfer R460). -/
def State.guestVector (s : State) (vec : Byte) : Bool :=
  !(vec == 0x2F && s.params.multiplexHandlers.contains (s.view .b8 .esp)) && !s.params.emulatedVectors.contains vec

/-- The host has registered no handler that a step could call (60_exceptions R524 to R526). -/
def State.noHandlers (s : State) : Bool :=
  s.params.emulatedVectors.isEmpty && s.params.multiplexHandlers.isEmpty && s.params.callbackSlots.isEmpty

/-! ### What an instruction leaves alone -/

/-- The state that a step ending with HostFatal leaves (00_scope R8, R16). -/
def stopLeft : Step → Option State
  | .fault (.doubleFault t) => some t
  | .fault (.physicalOutOfRange t) => some t
  | .refused (.unimplemented _ t) => some t
  | _ => none

/-- t is the entry to a handler of an exception raised in s: nothing of the instruction's own effect is left
(60_exceptions R506). -/
def TookFault (s t : State) : Prop :=
  ∃ r : Raised, deliverEvent r.vec .fault r.err s.eip (s.withCr2 r.cr2) = .next t

/-- The state outside registers, EIP, EFLAGS and memory is the same: table, control, debug and exception registers, the
dispatcher, the queue, the latches, the prefix state and the parameters. -/
def SameSystem (s t : State) : Prop :=
  t.gdtr = s.gdtr ∧ t.idtr = s.idtr ∧ t.ldtr = s.ldtr ∧ t.tr = s.tr ∧ t.cr0 = s.cr0 ∧ t.cr2 = s.cr2 ∧ t.cr3 = s.cr3 ∧
    t.dr = s.dr ∧ t.activity = s.activity ∧ t.pendingIrq = s.pendingIrq ∧ t.tfAtStart = s.tfAtStart ∧
    t.depth = s.depth ∧ t.fatal = s.fatal ∧ t.ctx = s.ctx ∧ t.params = s.params

/-- The six status flags (10_state R38). -/
def statusMask : Word := 0x8D5

/-- Where an instruction stores: n bytes at a linear address, as a state translates them for a write. -/
structure Store where
  at_ : State
  user : Bool
  lin : Word
  n : Nat
  deriving DecidableEq, Repr

/-- A physical byte is one of the stored bytes. -/
def Store.covers (w : Store) (a : Nat) : Bool :=
  match w.at_.physAll .write w.user (addrs w.lin w.n) with
  | some ps => ps.any fun p => p.toNat == a
  | none => false

/-- Every byte outside the stored bytes reads as before. Page walks write nothing, PAGING_SETS_AD being false
(20_memory R134). -/
def SameMemory (s t : State) (stores : List Store) : Prop :=
  s.plainWalks = true → ∀ a, (∀ w ∈ stores, w.covers a = false) → Memory.read t.mem a = Memory.read s.mem a

/-- The general registers outside a list are the same. -/
def SameRegs (s t : State) (regs : List Reg) : Prop :=
  ∀ q, q ∉ regs → t.regs.get q = s.regs.get q

/-- The segment registers outside a list are the same. -/
def SameSegs (s t : State) (segs : List SReg) : Prop :=
  ∀ q, q ∉ segs → t.segs.get q = s.segs.get q

/-- What an instruction may change besides EIP and the count of draws: general registers, segment registers, the flags of
a mask, and stored bytes. -/
structure Frame where
  regs : List Reg
  segs : List SReg
  flags : Word
  stores : List Store
  deriving DecidableEq, Repr

/-- Nothing outside a frame has changed in registers, flags and memory. -/
def Frame.holds (f : Frame) (s t : State) : Prop :=
  SameRegs s t f.regs ∧ SameSegs s t f.segs ∧ t.eflags &&& ~~~f.flags = s.eflags &&& ~~~f.flags ∧
    SameMemory s t f.stores

/-- An instruction that gives a next state without taking an exception changes only what its frame lists, EIP and the
count of draws. -/
def Framed (i : Instr) (s : State) (f : Frame) : Prop :=
  ∀ t, exec i s = .next t → TookFault s t ∨ (f.holds s t ∧ SameSystem s t ∧ t.events = s.events)

/-- The same for an instruction that may call devices: calls are only added (42_string_io R318). -/
def FramedPort (i : Instr) (s : State) (f : Frame) : Prop :=
  ∀ t, exec i s = .next t → TookFault s t ∨ (f.holds s t ∧ SameSystem s t ∧ s.events <+: t.events)

/-- The same for an instruction that writes a system register: back puts that register's old value back. -/
def FramedSystem (i : Instr) (s : State) (f : Frame) (back : State → State) : Prop :=
  ∀ t, exec i s = .next t → TookFault s t ∨ (f.holds s t ∧ SameSystem s (back t) ∧ t.events = s.events)

/-- The register that a location writes (10_state R32). -/
def Loc.regs (w : Size) : Loc → List Reg
  | .reg r => [if w = .b8 then (byteHome r).1 else r]
  | .mem _ _ => []

/-- A store of n bytes at an offset in a segment. -/
def State.segStore (s : State) (g : SReg) (off : Word) (n : Nat) : Store :=
  ⟨s, s.user, s.linear g off, n⟩

/-- Where a location stores. -/
def State.locStores (s : State) (w : Size) : Loc → List Store
  | .reg _ => []
  | .mem g off => [s.segStore g off w.bytes]

/-- Where a push of n bytes stores (43_stack R330). -/
def State.pushStore (s : State) (n : Nat) : Store :=
  s.segStore .ss (s.movedPointer (- BitVec.ofNat 32 n)) n

/-- Where pushes of n bytes store, one after the other (43_stack R330, R340). -/
def State.pushStores (s : State) (n : Nat) : List Nat → List Store
  | [] => []
  | v :: vs => s.pushStore n :: (s.pushed n v).pushStores n vs

/-- Where DESCRIPTOR_WRITEBACK stores (20_memory R106). -/
def State.markStores (s : State) (sel : Half) : List Store :=
  if s.params.descriptorWriteback then
    [⟨s, false, s.tableBase sel + BitVec.ofNat 32 (tableOffset sel + 5), 1⟩]
  else []

/-- Where a load of a segment register stores (20_memory R104, R106). -/
def State.loadStores (s : State) (sel : Half) : List Store :=
  if s.pe then s.markStores sel else []

/-- Where a delivery stores (60_exceptions R501, R502, R504). -/
def State.deliveryStores (s : State) (vec : Byte) (src : Source) (err : Option Half) (ret : Word) : List Store :=
  if !s.pe then s.pushStores 2 (s.vectorFrame ret)
  else if s.sameLevel vec then (s.levelEntered vec).pushStores (s.gateBytes vec) (s.gateFrame s vec src err ret)
  else (s.innerEntered vec).pushStores (s.gateBytes vec) (s.innerFrame vec src err ret)

/-- The frame of an instruction that writes one location and the status flags of a mask. -/
def State.locFrame (s : State) (w : Size) (l : Loc) (flags : Word) : Frame :=
  ⟨l.regs w, [], flags, s.locStores w l⟩

/-- The nine forms change their destination and the status flags (40_arithmetic R233). -/
def NineForms.FramesWrites (f : NineForms) : Prop :=
  ∀ s rm r ib iz,
    Framed (f.rm8R8 rm r) s (s.locFrame .b8 (locate s rm) statusMask) ∧
    Framed (f.rmvRv rm r) s (s.locFrame s.ctx.osz (locate s rm) statusMask) ∧
    Framed (f.r8Rm8 r rm) s (s.locFrame .b8 (.reg r) statusMask) ∧
    Framed (f.rvRmv r rm) s (s.locFrame s.ctx.osz (.reg r) statusMask) ∧
    Framed (f.alIb ib) s (s.locFrame .b8 (.reg .eax) statusMask) ∧
    Framed (f.eaxIz iz) s (s.locFrame s.ctx.osz (.reg .eax) statusMask) ∧
    Framed (f.rm8Ib rm ib) s (s.locFrame .b8 (locate s rm) statusMask) ∧
    Framed (f.rmvIz rm iz) s (s.locFrame s.ctx.osz (locate s rm) statusMask) ∧
    Framed (f.rmvIbs rm ib) s (s.locFrame s.ctx.osz (locate s rm) statusMask)

/-- An instruction changes nothing but flags of a mask. -/
def FlagsOnly (i : Instr) (flags : Word) : Prop :=
  ∀ s, Framed i s ⟨[], [], flags, []⟩

/-- The nine forms change the status flags only (40_arithmetic R238). -/
def NineForms.FramesCompares (f : NineForms) : Prop :=
  ∀ rm r ib iz,
    FlagsOnly (f.rm8R8 rm r) statusMask ∧ FlagsOnly (f.rmvRv rm r) statusMask ∧
    FlagsOnly (f.r8Rm8 r rm) statusMask ∧ FlagsOnly (f.rvRmv r rm) statusMask ∧
    FlagsOnly (f.alIb ib) statusMask ∧ FlagsOnly (f.eaxIz iz) statusMask ∧
    FlagsOnly (f.rm8Ib rm ib) statusMask ∧ FlagsOnly (f.rmvIz rm iz) statusMask ∧
    FlagsOnly (f.rmvIbs rm ib) statusMask

/-- The six forms of a shift or rotate change their destination and the flags of a mask (41_logic_shift R266). -/
def ShiftForms.Frames (f : ShiftForms) (flags : Word) : Prop :=
  ∀ s rm ib,
    Framed (f.rm8Ib rm ib) s (s.locFrame .b8 (locate s rm) flags) ∧
    Framed (f.rmvIb rm ib) s (s.locFrame s.ctx.osz (locate s rm) flags) ∧
    Framed (f.rm8One rm) s (s.locFrame .b8 (locate s rm) flags) ∧
    Framed (f.rmvOne rm) s (s.locFrame s.ctx.osz (locate s rm) flags) ∧
    Framed (f.rm8Cl rm) s (s.locFrame .b8 (locate s rm) flags) ∧
    Framed (f.rmvCl rm) s (s.locFrame s.ctx.osz (locate s rm) flags)

end Sys2Proof.Machine
end

