-- ==== Sys2Proof/Certificates/Slice0/Obligations.lean ====
section
/-! DEFINITION. The obligations: what the provers are to prove of the model, each a claim about the machine read from the
numbered rules of the spec. -/

open Sys2Proof
open Sys2Proof.Machine

/-! ### Arithmetic and logic -/

/-- ADD, ADC, SUB, SBB and CMP in their nine forms: both operands are read before anything is written, the result goes to the
destination (CMP discards it), the flags are those of AddFlags or SubFlags, and nothing else changes but EIP. -/
def Obligations.ArithmeticRuns : Prop :=
  NineForms.add.Writes effectAdd ∧ NineForms.adc.Writes effectAdc ∧ NineForms.sub.Writes effectSub ∧
    NineForms.sbb.Writes effectSbb ∧ NineForms.cmp.Compares effectSub

/-- AND, OR and XOR in their nine forms and TEST in its six: bitwise result, LogicFlags, AF a free value (log 4). INC and DEC
(CF kept), NEG (SubFlags of zero and dst) and NOT (no flag) in all their forms. -/
def Obligations.LogicAndUnaryRun : Prop :=
  NineForms.and.Writes effectAnd ∧ NineForms.or.Writes effectOr ∧ NineForms.xor.Writes effectXor ∧
    (∀ s rm r, s.canRead .b8 (locate s rm) = true →
      exec (.testRm8R8 rm r) s = .next (s.compare effectAnd .b8 (locate s rm) (s.view .b8 r))) ∧
    (∀ s rm r, s.canRead s.ctx.osz (locate s rm) = true →
      exec (.testRmvRv rm r) s = .next (s.compare effectAnd s.ctx.osz (locate s rm) (s.view s.ctx.osz r))) ∧
    (∀ s ib, s.plainWalks = true → exec (.testAlIb ib) s = .next (s.compare effectAnd .b8 (.reg .eax) ib)) ∧
    (∀ s iz, s.plainWalks = true →
      exec (.testEaxIz iz) s = .next (s.compare effectAnd s.ctx.osz (.reg .eax) (immIz s.ctx.osz iz))) ∧
    (∀ s rm ib, s.canRead .b8 (locate s rm) = true →
      exec (.testRm8Ib rm ib) s = .next (s.compare effectAnd .b8 (locate s rm) ib)) ∧
    (∀ s rm iz, s.canRead s.ctx.osz (locate s rm) = true →
      exec (.testRmvIz rm iz) s = .next (s.compare effectAnd s.ctx.osz (locate s rm) (immIz s.ctx.osz iz))) ∧
  (∀ s r, s.plainWalks = true → exec (.incRv r) s = .next (s.update effectInc s.ctx.osz (.reg r))) ∧
    (∀ s r, s.plainWalks = true → exec (.decRv r) s = .next (s.update effectDec s.ctx.osz (.reg r))) ∧
    (∀ s rm, s.canUpdate .b8 (locate s rm) = true →
      exec (.incRm8 rm) s = .next (s.update effectInc .b8 (locate s rm)) ∧
        exec (.decRm8 rm) s = .next (s.update effectDec .b8 (locate s rm)) ∧
        exec (.negRm8 rm) s = .next (s.update effectNeg .b8 (locate s rm)) ∧
        exec (.notRm8 rm) s = .next (s.update effectNot .b8 (locate s rm))) ∧
    (∀ s rm, s.canUpdate s.ctx.osz (locate s rm) = true →
      exec (.incRmv rm) s = .next (s.update effectInc s.ctx.osz (locate s rm)) ∧
        exec (.decRmv rm) s = .next (s.update effectDec s.ctx.osz (locate s rm)) ∧
        exec (.negRmv rm) s = .next (s.update effectNeg s.ctx.osz (locate s rm)) ∧
        exec (.notRmv rm) s = .next (s.update effectNot s.ctx.osz (locate s rm)))

/-- MUL and IMUL: the exact product of the two factors, in 2w bits for the one-operand forms and truncated to w bits for
the others; CF and OF tell whether it needs more than w bits, and SF ZF AF PF are free values (log 4). -/
def Obligations.MultipliesRun : Prop :=
  (∀ s rm, s.canRead .b8 (locate s rm) = true →
    (∀ p : Nat, p = (s.view .b8 .eax).toNat * (s.locValue .b8 (locate s rm)).toNat →
      exec (.mulRm8 rm) s = .next (s.multiplied .b8 (BitVec.ofNat _ p) (decide (2 ^ 8 ≤ p)))) ∧
    (∀ p : Int, p = (s.view .b8 .eax).toInt * (s.locValue .b8 (locate s rm)).toInt →
      exec (.imulRm8 rm) s = .next (s.multiplied .b8 (BitVec.ofInt _ p) (!fitsSigned .b8 p)))) ∧
  (∀ s rm, s.canRead s.ctx.osz (locate s rm) = true →
    (∀ p : Nat, p = (s.view s.ctx.osz .eax).toNat * (s.locValue s.ctx.osz (locate s rm)).toNat →
      exec (.mulRmv rm) s = .next (s.multiplied s.ctx.osz (BitVec.ofNat _ p) (decide (2 ^ s.ctx.osz.bits ≤ p)))) ∧
    (∀ p : Int, p = (s.view s.ctx.osz .eax).toInt * (s.locValue s.ctx.osz (locate s rm)).toInt →
      exec (.imulRmv rm) s = .next (s.multiplied s.ctx.osz (BitVec.ofInt _ p) (!fitsSigned s.ctx.osz p))) ∧
    (∀ r, exec (.imulRvRmv r rm) s = .next (s.imulStored s.ctx.osz r
      ((s.view s.ctx.osz r).toInt * (s.locValue s.ctx.osz (locate s rm)).toInt))) ∧
    (∀ r iz, exec (.imulRvRmvIz r rm iz) s = .next (s.imulStored s.ctx.osz r
      ((s.locValue s.ctx.osz (locate s rm)).toInt * (immIz s.ctx.osz iz).toInt))) ∧
    (∀ r ib, exec (.imulRvRmvIbs r rm ib) s = .next (s.imulStored s.ctx.osz r
      ((s.locValue s.ctx.osz (locate s rm)).toInt * (immIbs s.ctx.osz ib).toInt))))

/-- DIV and IDIV: for a divisor d and the dividend n = q*d + r with the remainder smaller than the divisor and, signed, of
the dividend's sign, q and r go to the accumulator pair if q fits, the six status flags being free values (log 4); a zero
divisor or a quotient that does not fit takes the divide error, vector 0, with nothing written. -/
def Obligations.DividesRun : Prop :=
  ∀ (w : Size) (s : State) (rm : RM), (w = .b8 ∨ w = s.ctx.osz) → s.canRead w (locate s rm) = true →
    ∀ i j d, i = (if w = .b8 then Instr.divRm8 rm else Instr.divRmv rm) →
    j = (if w = .b8 then Instr.idivRm8 rm else Instr.idivRmv rm) → d = s.locValue w (locate s rm) →
    (d = 0 → exec i s = s.faulted 0 none ∧ exec j s = s.faulted 0 none) ∧
    (∀ q r : Nat, (accPair w s).toNat = q * d.toNat + r → r < d.toNat →
      exec i s = if q < 2 ^ w.bits then .next (s.divided w (BitVec.ofNat _ q) (BitVec.ofNat _ r)) else s.faulted 0 none) ∧
    (∀ q r : Int, (accPair w s).toInt = q * d.toInt + r → r.natAbs < d.toInt.natAbs → 0 ≤ r * (accPair w s).toInt →
      exec j s =
        if fitsSigned w q then .next (s.divided w (BitVec.ofInt _ q) (BitVec.ofInt _ r)) else s.faulted 0 none)

/-! ### Shifts -/

/-- The seven shifts and rotates in their six forms, and SHLD and SHRD in their two. Undefined results and flags are free
values (log 4); SHLD and SHRD read their destination with every count, the model's reading (log 25). -/
def Obligations.ShiftsRun : Prop :=
  ShiftForms.rol.Runs .rol ∧ ShiftForms.ror.Runs .ror ∧ ShiftForms.rcl.Runs .rcl ∧ ShiftForms.rcr.Runs .rcr ∧
    ShiftForms.shl.Runs .shl ∧ ShiftForms.shr.Runs .shr ∧ ShiftForms.sar.Runs .sar ∧
    (∀ s rm r ib, s.canShift s.ctx.osz (locate s rm) ib.toNat = true →
      exec (.shldRmvRvIb rm r ib) s =
          .next (s.doubleShifted true s.ctx.osz (locate s rm) (s.view s.ctx.osz r) ib.toNat) ∧
        exec (.shrdRmvRvIb rm r ib) s =
          .next (s.doubleShifted false s.ctx.osz (locate s rm) (s.view s.ctx.osz r) ib.toNat)) ∧
    (∀ s rm r, s.canShift s.ctx.osz (locate s rm) (s.view .b8 .ecx).toNat = true →
      exec (.shldRmvRvCl rm r) s =
          .next (s.doubleShifted true s.ctx.osz (locate s rm) (s.view s.ctx.osz r) (s.view .b8 .ecx).toNat) ∧
        exec (.shrdRmvRvCl rm r) s =
          .next (s.doubleShifted false s.ctx.osz (locate s rm) (s.view s.ctx.osz r) (s.view .b8 .ecx).toNat))


/-! ### Strings and ports -/

/-- MOVS, CMPS, STOS, LODS and SCAS: with a repeat prefix and an empty count nothing, else one element; the count goes
down and EIP moves on when the repetition ends. -/
def Obligations.StringsRun : Prop :=
  ∀ (w : Size) (movs cmps stos lods scas : Instr) (size : State → Size),
    ((w = .b8 ∧ movs = .movsB ∧ cmps = .cmpsB ∧ stos = .stosB ∧ lods = .lodsB ∧ scas = .scasB ∧ size = fun _ => .b8) ∨
      (movs = .movsV ∧ cmps = .cmpsV ∧ stos = .stosV ∧ lods = .lodsV ∧ scas = .scasV ∧ size = fun s => s.ctx.osz)) →
    StringRuns movs (fun s => s.canSource (size s) && s.canDestWrite (size s))
      (fun s => ((s.storeDest (size s) (s.source (size s))).stepIndex (size s) .esi).stepIndex (size s) .edi) false ∧
    StringRuns cmps (fun s => s.canSource (size s) && s.canDestRead (size s))
      (fun s => ((s.withFlags (subFlags (s.source (size s)) (s.dest (size s)) false)).stepIndex (size s) .esi).stepIndex
        (size s) .edi) true ∧
    StringRuns stos (fun s => s.canDestWrite (size s))
      (fun s => (s.storeDest (size s) (s.view (size s) .eax)).stepIndex (size s) .edi) false ∧
    StringRuns lods (fun s => s.canSource (size s))
      (fun s => (s.setView (size s) .eax (s.source (size s))).stepIndex (size s) .esi) false ∧
    StringRuns scas (fun s => s.canDestRead (size s))
      (fun s => (s.withFlags (subFlags (s.view (size s) .eax) (s.dest (size s)) false)).stepIndex (size s) .edi) true

/-- INS and OUTS as string instructions that may touch a port, and IN and OUT with the port in an immediate or DX, where
the I/O privilege allows it. That a mapped read gives a masked free value and that each device call is recorded in
State.events is the model's choice (log 6). -/
def Obligations.PortsRun : Prop :=
  StringRuns .insB (fun s => s.ioPriv && s.canDestWrite .b8)
    (fun s => ((s.portsRead (s.view .b16 .edx) .b8).storeDest .b8 (s.inValue (s.view .b16 .edx) .b8)).stepIndex .b8 .edi)
    false ∧
  StringRuns .insV (fun s => s.ioPriv && s.canDestWrite s.ctx.osz)
    (fun s => ((s.portsRead (s.view .b16 .edx) s.ctx.osz).storeDest s.ctx.osz
      (s.inValue (s.view .b16 .edx) s.ctx.osz)).stepIndex s.ctx.osz .edi) false ∧
  StringRuns .outsB (fun s => s.ioPriv && s.canSource .b8)
    (fun s => (s.portsWritten (s.view .b16 .edx) .b8 (s.source .b8)).stepIndex .b8 .esi) false ∧
  StringRuns .outsV (fun s => s.ioPriv && s.canSource s.ctx.osz)
    (fun s => (s.portsWritten (s.view .b16 .edx) s.ctx.osz (s.source s.ctx.osz)).stepIndex s.ctx.osz .esi) false ∧
  (∀ ib, InRuns (.inAlIb ib) (fun _ => .b8) (fun _ => ib.setWidth 16) ∧
    InRuns (.inEaxIb ib) (fun s => s.ctx.osz) (fun _ => ib.setWidth 16) ∧
    OutRuns (.outIbAl ib) (fun _ => .b8) (fun _ => ib.setWidth 16) ∧
    OutRuns (.outIbEax ib) (fun s => s.ctx.osz) (fun _ => ib.setWidth 16)) ∧
  InRuns .inAlDx (fun _ => .b8) (fun s => s.view .b16 .edx) ∧
  InRuns .inEaxDx (fun s => s.ctx.osz) (fun s => s.view .b16 .edx) ∧
  OutRuns .outDxAl (fun _ => .b8) (fun s => s.view .b16 .edx) ∧
  OutRuns .outDxEax (fun s => s.ctx.osz) (fun s => s.view .b16 .edx)

/-! ### The stack -/

/-- PUSH of a register, an immediate, an r/m operand and each segment register: the value is read before the pointer
moves; a selector in a 32-bit slot has a free upper half (log 4). POP into a register, an r/m operand (its address computed
after the pop) and a segment register. That the accessed mark of a descriptor is written also when it is there already is the
model's reading (log 23). -/
def Obligations.PushesAndPopsRun : Prop :=
  (∀ s, s.plainWalks = true → s.canPush s.ctx.osz.bytes = true →
    (∀ r, exec (.pushRv r) s = .next (s.pushed s.ctx.osz.bytes (s.view s.ctx.osz r).toNat).advanced) ∧
    (∀ iz, exec (.pushIz iz) s = .next (s.pushed s.ctx.osz.bytes (immIz s.ctx.osz iz).toNat).advanced) ∧
    (∀ ib, exec (.pushIbs ib) s = .next (s.pushed s.ctx.osz.bytes (immIbs s.ctx.osz ib).toNat).advanced) ∧
    (∀ rm, s.locReadable s.ctx.osz (locate s rm) = true →
      exec (.pushRmv rm) s = .next (s.pushed s.ctx.osz.bytes (s.locValue s.ctx.osz (locate s rm)).toNat).advanced) ∧
    (∀ i r, (i, r) ∈ [(Instr.pushEs, SReg.es), (.pushCs, .cs), (.pushSs, .ss), (.pushDs, .ds), (.pushFs, .fs),
        (.pushGs, .gs)] →
      exec i s = .next ((s.imaged s.ctx.osz.bytes).pushed s.ctx.osz.bytes
        (s.selValue s.ctx.osz.bytes (s.seg r).sel)).advanced)) ∧
  (∀ s, s.plainWalks = true → s.canPop s.ctx.osz.bytes = true →
    (∀ r, exec (.popRv r) s = .next (s.poppedInto s.ctx.osz r).advanced) ∧
    (∀ rm x, x = s.popped s.ctx.osz.bytes → x.locWritable s.ctx.osz (locate x rm) = true →
      exec (.popRmv rm) s =
        .next (x.locStore s.ctx.osz (locate x rm) (BitVec.ofNat _ (s.top s.ctx.osz.bytes))).advanced) ∧
    (∀ i r, (i, r) ∈ [(Instr.popEs, SReg.es), (.popSs, .ss), (.popDs, .ds), (.popFs, .fs), (.popGs, .gs)] →
      ∀ x, x = s.popped s.ctx.osz.bytes → x.canLoad r (BitVec.ofNat 16 (s.top s.ctx.osz.bytes)) = true →
        exec i s = .next (x.loaded r (BitVec.ofNat 16 (s.top s.ctx.osz.bytes))).advanced))

/-- PUSHA, POPA, PUSHF, POPF and LEAVE. -/
def Obligations.StackFramesRun : Prop :=
  ∀ s, s.plainWalks = true →
    (∀ vs, vs = [Reg.eax, .ecx, .edx, .ebx, .esp, .ebp, .esi, .edi].map (fun r => (s.view s.ctx.osz r).toNat) →
      s.canPushes s.ctx.osz.bytes vs = true → exec .pusha s = .next (s.pushes s.ctx.osz.bytes vs).advanced) ∧
    (s.canPopList s.ctx.osz popaOrder = true → exec .popa s = .next (s.poppedList s.ctx.osz popaOrder).advanced) ∧
    (s.canPush s.ctx.osz.bytes = true →
      exec .pushf s = .next (s.pushed s.ctx.osz.bytes s.eflags.toNat).advanced) ∧
    (s.canPop s.ctx.osz.bytes = true →
      exec .popf s = .next (((s.popped s.ctx.osz.bytes).withFlags fun old =>
        maskedFlags (popMask s.priv0 s.ioPriv) old (BitVec.ofNat 32 (s.top s.ctx.osz.bytes)))).advanced) ∧
    (∀ x, x = s.setStackPointer s.regs.ebp → x.canPop s.ctx.osz.bytes = true →
      exec .leave s = .next (x.poppedInto s.ctx.osz .ebp).advanced)

/-- PUSH of a register and then POP into one other than the stack pointer leaves the value there and the stack pointer
where it was, with paging off. -/
def Obligations.PushThenPopRestores : Prop :=
  ∀ s src dst, Memory.wf s.mem = true → s.plainWalks = true → s.paging = false → dst ≠ Reg.esp →
    s.canPush s.ctx.osz.bytes = true →
    ∃ t u, exec (.pushRv src) s = .next t ∧ exec (.popRv dst) t = .next u ∧
      u.view s.ctx.osz dst = s.view s.ctx.osz src ∧ u.stackPointer = s.stackPointer ∧ u.eflags = s.eflags

/-! ### System instructions -/

/-- LGDT, LIDT, SGDT, SIDT, LLDT and LTR. The byte that SGDT and SIDT add with a 16-bit operand size is a free value
(log 4). That the mark LTR may leave in a descriptor is written also when it is there already is the model's reading
(log 23). -/
def Obligations.TableRegistersRun : Prop :=
  ∀ s, s.plainWalks = true →
    (∀ m g off, (g, off) = memLoc s m →
      (s.priv0 = true → s.readable g off 6 = true →
        exec (.lgdtM m) s = .next { s with gdtr := pseudoOf s.ctx.osz (s.loadFrom g off 6) }.advanced ∧
        exec (.lidtM m) s = .next { s with idtr := pseudoOf s.ctx.osz (s.loadFrom g off 6) }.advanced) ∧
      (s.writable g off 6 = true →
        exec (.sgdtM m) s = .next (s.tableStored s.ctx.osz g off s.gdtr) ∧
        exec (.sidtM m) s = .next (s.tableStored s.ctx.osz g off s.idtr))) ∧
    (∀ rm sel, s.pe = true → s.cpl = 0 → s.locReadable .b16 (locate s rm) = true →
      sel = s.locValue .b16 (locate s rm) →
      (s.canLdt sel = true → exec (.lldtRm16 rm) s = .next { s with ldtr := s.ldtOf sel }.advanced) ∧
      (s.canTask sel = true →
        exec (.ltrRm16 rm) s = .next (({ s with tr := s.taskOf sel }).marked sel (s.desc sel) 2).advanced))

/-- MOV to and from control and debug registers, LMSW, CLTS, HLT, CLI and STI. The six status flags after a MOV of a
control or debug register are free values (log 4). -/
def Obligations.ControlRegistersRun : Prop :=
  ∀ s, s.plainWalks = true →
    (s.priv0 = true →
      (∀ md r k, exec (.movCrR32 md k r) s = .next (s.setCreg k (s.reg r)).clobbered.advanced ∧
        exec (.movR32Cr md r k) s = .next (s.setReg r (s.creg k)).clobbered.advanced) ∧
      (∀ md r k, exec (.movDrR32 md k r) s = .next ({ s with dr := s.dr.set k (s.reg r) }).clobbered.advanced ∧
        exec (.movR32Dr md r k) s = .next (s.setReg r (s.dr.get k)).clobbered.advanced) ∧
      (∀ rm, s.locReadable .b16 (locate s rm) = true →
        exec (.lmswRm16 rm) s = .next ({ s with
          cr0 := s.cr0.extractLsb' 4 28 ++ (s.locValue .b16 (locate s rm)).extractLsb' 1 3 ++
            (s.cr0.extractLsb' 0 1 ||| (s.locValue .b16 (locate s rm)).extractLsb' 0 1) }).advanced) ∧
      exec .clts s = .next ({ s with cr0 := s.cr0 &&& 0xFFFFFFF7 }).advanced ∧
      exec .hlt s = .next ({ s with activity := .halted }).advanced) ∧
    (s.ioPriv = true →
      exec .cli s = .next (s.withFlags (setFlag .intf false)).advanced ∧
      exec .sti s = .next (s.withFlags (setFlag .intf true)).advanced)

/-- MOV to a segment register and LDS, LES, LSS, LFS, LGS: the checks and contents of a segment load, and MOV from a
segment register, SMSW, and in protected mode SLDT and STR: the upper half of a 32-bit register is a free value
(log 4). That the accessed mark of a descriptor is written also when it is there already is the model's reading (log 23). -/
def Obligations.SelectorMovesRun : Prop :=
  (∀ s rm r, r ≠ SReg.cs → s.canRead .b16 (locate s rm) = true → s.canLoad r (s.locValue .b16 (locate s rm)) = true →
    exec (.movSregRm16 r rm) s = .next (s.loaded r (s.locValue .b16 (locate s rm))).advanced) ∧
  (∀ s m g off p, s.plainWalks = true → (g, off) = memLoc s m → s.readable g off (s.ctx.osz.bytes + 2) = true →
    p = s.loadFrom g off (s.ctx.osz.bytes + 2) →
    ∀ (i : Reg → Instr) (r : SReg), (i = (Instr.lesRvMem · m) ∧ r = .es) ∨ (i = (.ldsRvMem · m) ∧ r = .ds) ∨
        (i = (.lssRvMem · m) ∧ r = .ss) ∨ (i = (.lfsRvMem · m) ∧ r = .fs) ∨ (i = (.lgsRvMem · m) ∧ r = .gs) →
      s.canLoad r (farSelector s.ctx.osz p) = true → ∀ d,
        exec (i d) s = .next ((s.loaded r (farSelector s.ctx.osz p)).setView s.ctx.osz d (BitVec.ofNat _ p)).advanced) ∧
  (∀ s rm, s.canWrite .b16 (locate s rm) = true →
    (∀ r, exec (.movRm16Sreg rm r) s = .next (s.halfStored s.ctx.osz (locate s rm) (s.seg r).sel)) ∧
    exec (.smswRm16 rm) s = .next (s.halfStored s.ctx.osz (locate s rm) (s.cr0.extractLsb' 0 16)) ∧
    (s.pe = true →
      exec (.sldtRm16 rm) s = .next (s.halfStored s.ctx.osz (locate s rm) s.ldtr.sel) ∧
      exec (.strRm16 rm) s = .next (s.halfStored s.ctx.osz (locate s rm) s.tr.sel)))

/-- Where a privileged instruction traps: #GP(0) with nothing of its effect, at a level that may not run it. That the refusals
of real mode carry the state is the model's choice (log 9). -/
def Obligations.PrivilegeTraps : Prop :=
  (∀ s i, s.plainWalks = true → s.priv0 = false →
    ((∃ m, i = .lgdtM m) ∨ (∃ m, i = .lidtM m) ∨ (∃ rm, i = .lldtRm16 rm) ∨ (∃ rm, i = .ltrRm16 rm) ∨
      (∃ rm, i = .lmswRm16 rm) ∨ i = .clts ∨ i = .hlt ∨ (∃ md r k, i = .movCrR32 md k r) ∨
      (∃ md r k, i = .movR32Cr md r k) ∨ (∃ md r k, i = .movDrR32 md k r) ∨ (∃ md r k, i = .movR32Dr md r k)) →
    exec i s = s.faulted 13 (some 0)) ∧
  (∀ s i, s.plainWalks = true → s.ioPriv = false →
    (i = .cli ∨ i = .sti ∨ (∃ ib, i = .inAlIb ib ∨ i = .inEaxIb ib ∨ i = .outIbAl ib ∨ i = .outIbEax ib) ∨
      i = .inAlDx ∨ i = .inEaxDx ∨ i = .outDxAl ∨ i = .outDxEax ∨
      (s.repeatEmpty = false ∧ (i = .insB ∨ i = .insV ∨ i = .outsB ∨ i = .outsV))) →
    exec i s = s.faulted 13 (some 0)) ∧
  (∀ s rm, s.plainWalks = true → s.pe = false →
    exec (.sldtRm16 rm) s = .refused (.unimplemented (.encoding .realModeRow) s) ∧
    exec (.strRm16 rm) s = .refused (.unimplemented (.encoding .realModeRow) s) ∧
    exec (.lldtRm16 rm) s = .refused (.unimplemented (.encoding .realModeRow) s) ∧
    exec (.ltrRm16 rm) s = .refused (.unimplemented (.encoding .realModeRow) s))

/-! ### Data movement -/

/-- MOV, XCHG, LEA, MOVZX, MOVSX and SETcc in all their forms: no flag changes. That MOVZX and MOVSX of a 16-bit source write
16 bits with a 16-bit operand size is 45_data_movement R405 and R406, which the model follows against 30_encoding R202
(log 29). -/
def Obligations.MovesRun : Prop :=
  (∀ s rm, s.canWrite .b8 (locate s rm) = true →
    (∀ r, exec (.movRm8R8 rm r) s = .next (s.locStore .b8 (locate s rm) (s.view .b8 r)).advanced) ∧
    (∀ ib, exec (.movRm8Ib rm ib) s = .next (s.locStore .b8 (locate s rm) ib).advanced) ∧
    (∀ cc ig, exec (.setccRm8 cc ig rm) s =
      .next (s.locStore .b8 (locate s rm) (if condHolds cc s.eflags then 1 else 0)).advanced)) ∧
  (∀ s rm, s.canWrite s.ctx.osz (locate s rm) = true →
    (∀ r, exec (.movRmvRv rm r) s = .next (s.locStore s.ctx.osz (locate s rm) (s.view s.ctx.osz r)).advanced) ∧
    (∀ iz, exec (.movRmvIz rm iz) s = .next (s.locStore s.ctx.osz (locate s rm) (immIz s.ctx.osz iz)).advanced)) ∧
  (∀ s r rm, s.canRead .b8 (locate s rm) = true →
    exec (.movR8Rm8 r rm) s = .next (s.setView .b8 r (s.locValue .b8 (locate s rm))).advanced ∧
    exec (.movzxRvRm8 r rm) s =
      .next (s.setView s.ctx.osz r (BitVec.ofNat _ (s.locValue .b8 (locate s rm)).toNat)).advanced ∧
    exec (.movsxRvRm8 r rm) s =
      .next (s.setView s.ctx.osz r (BitVec.ofInt _ (s.locValue .b8 (locate s rm)).toInt)).advanced) ∧
  (∀ s r rm, s.canRead .b16 (locate s rm) = true →
    exec (.movzxRvRm16 r rm) s =
      .next (s.setView s.ctx.osz r (BitVec.ofNat _ (s.locValue .b16 (locate s rm)).toNat)).advanced ∧
    exec (.movsxRvRm16 r rm) s =
      .next (s.setView s.ctx.osz r (BitVec.ofInt _ (s.locValue .b16 (locate s rm)).toInt)).advanced) ∧
  (∀ s r rm, s.canRead s.ctx.osz (locate s rm) = true →
    exec (.movRvRmv r rm) s = .next (s.setView s.ctx.osz r (s.locValue s.ctx.osz (locate s rm))).advanced) ∧
  (∀ s off, s.canRead .b8 (.mem s.sourceSeg off) = true →
    exec (.movAlMoffs8 off) s = .next (s.setView .b8 .eax (s.locValue .b8 (.mem s.sourceSeg off))).advanced) ∧
  (∀ s off, s.canRead s.ctx.osz (.mem s.sourceSeg off) = true →
    exec (.movEaxMoffsv off) s =
      .next (s.setView s.ctx.osz .eax (s.locValue s.ctx.osz (.mem s.sourceSeg off))).advanced) ∧
  (∀ s off, s.canWrite .b8 (.mem s.sourceSeg off) = true →
    exec (.movMoffs8Al off) s = .next (s.locStore .b8 (.mem s.sourceSeg off) (s.view .b8 .eax)).advanced) ∧
  (∀ s off, s.canWrite s.ctx.osz (.mem s.sourceSeg off) = true →
    exec (.movMoffsvEax off) s =
      .next (s.locStore s.ctx.osz (.mem s.sourceSeg off) (s.view s.ctx.osz .eax)).advanced) ∧
  (∀ s, s.plainWalks = true →
    (∀ r ib, exec (.movR8Ib r ib) s = .next (s.setView .b8 r ib).advanced) ∧
    (∀ r iz, exec (.movRvIz r iz) s = .next (s.setView s.ctx.osz r (immIz s.ctx.osz iz)).advanced) ∧
    (∀ r m, exec (.leaRvM r m) s = .next (s.setView s.ctx.osz r ((effectiveOffset s m).setWidth _)).advanced) ∧
    (∀ i r, (i, r) ∈ [(Instr.xchgEaxEcx, Reg.ecx), (.xchgEaxEdx, .edx), (.xchgEaxEbx, .ebx), (.xchgEaxEsp, .esp),
        (.xchgEaxEbp, .ebp), (.xchgEaxEsi, .esi), (.xchgEaxEdi, .edi)] →
      exec i s = .next ((s.setView s.ctx.osz .eax (s.view s.ctx.osz r)).setView s.ctx.osz r
        (s.view s.ctx.osz .eax)).advanced)) ∧
  (∀ s rm r, s.canUpdate .b8 (locate s rm) = true →
    exec (.xchgRm8R8 rm r) s = .next ((s.locStore .b8 (locate s rm) (s.view .b8 r)).setView .b8 r
      (s.locValue .b8 (locate s rm))).advanced) ∧
  (∀ s rm r, s.canUpdate s.ctx.osz (locate s rm) = true →
    exec (.xchgRmvRv rm r) s = .next ((s.locStore s.ctx.osz (locate s rm) (s.view s.ctx.osz r)).setView s.ctx.osz r
      (s.locValue s.ctx.osz (locate s rm))).advanced)

/-- CBW, CWD, XLAT, LAHF, SAHF, NOP and the flag instructions. -/
def Obligations.AccumulatorRuns : Prop :=
  (∀ s off, off = BitVec.ofNat 32 (((s.view s.ctx.asz .ebx).toNat + (s.view .b8 .eax).toNat) % 2 ^ s.ctx.asz.bits) →
    s.canRead .b8 (.mem s.sourceSeg off) = true →
    exec .xlat s = .next (s.setView .b8 .eax (s.locValue .b8 (.mem s.sourceSeg off))).advanced) ∧
  (∀ s, s.plainWalks = true →
    exec .cbw s = .next (if s.ctx.osz = .b32 then s.setView .b32 .eax (BitVec.ofInt 32 (s.view .b16 .eax).toInt)
      else s.setView .b16 .eax (BitVec.ofInt 16 (s.view .b8 .eax).toInt)).advanced ∧
    exec .cwd s = .next (s.setView s.ctx.osz .edx
      (BitVec.ofInt _ (if (s.view s.ctx.osz .eax).toInt < 0 then -1 else 0))).advanced ∧
    exec .lahf s = .next (s.setView .b8 .esp (s.eflags.extractLsb' 0 8)).advanced ∧
    exec .sahf s = .next (s.withFlags fun old =>
      (old &&& 0xFFFFFF00) ||| ((s.view .b8 .esp).setWidth 32 &&& 0xD5) ||| 2).advanced ∧
    exec .nop s = .next s.advanced ∧
    exec .clc s = .next (s.withFlags (setFlag .cf false)).advanced ∧
    exec .stc s = .next (s.withFlags (setFlag .cf true)).advanced ∧
    exec .cmc s = .next (s.withFlags (setFlag .cf (!s.flag .cf))).advanced ∧
    exec .cld s = .next (s.withFlags (setFlag .df false)).advanced ∧
    exec .std s = .next (s.withFlags (setFlag .df true)).advanced)

/-! ### Control transfer -/

/-- JMP, Jcc, JCXZ, LOOP, LOOPE and LOOPNE: the target is checked only when the branch is taken. -/
def Obligations.JumpsRun : Prop :=
  ∀ s, s.plainWalks = true →
    (∀ rel, s.canNear s.ctx.osz (s.nextEip + rel.signExtend 32) = true →
      exec (.jmpRel8 rel) s = .next (s.jumped s.ctx.osz (s.nextEip + rel.signExtend 32))) ∧
    (∀ rel, s.canNear s.ctx.osz (s.nextEip + relz s.ctx.osz rel) = true →
      exec (.jmpRelz rel) s = .next (s.jumped s.ctx.osz (s.nextEip + relz s.ctx.osz rel))) ∧
    (∀ rm, s.locReadable s.ctx.osz (locate s rm) = true →
      s.canNear s.ctx.osz ((s.locValue s.ctx.osz (locate s rm)).setWidth 32) = true →
      exec (.jmpRmv rm) s = .next (s.jumped s.ctx.osz ((s.locValue s.ctx.osz (locate s rm)).setWidth 32))) ∧
    (∀ cc rel, (condHolds cc s.eflags = true → s.canNear s.ctx.osz (s.nextEip + rel.signExtend 32) = true) →
      exec (.jccRel8 cc rel) s =
        .next (s.branched (condHolds cc s.eflags) s.ctx.osz (s.nextEip + rel.signExtend 32))) ∧
    (∀ cc rel, (condHolds cc s.eflags = true → s.canNear s.ctx.osz (s.nextEip + relz s.ctx.osz rel) = true) →
      exec (.jccRelz cc rel) s =
        .next (s.branched (condHolds cc s.eflags) s.ctx.osz (s.nextEip + relz s.ctx.osz rel))) ∧
    (∀ rel b, b = decide (s.view s.ctx.asz .ecx = 0) →
      (b = true → s.canNear s.ctx.osz (s.nextEip + rel.signExtend 32) = true) →
      exec (.jcxzRel8 rel) s = .next (s.branched b s.ctx.osz (s.nextEip + rel.signExtend 32))) ∧
    (∀ rel i zf b, (i = Instr.loopRel8 rel ∧ zf = true) ∨ (i = .loopeRel8 rel ∧ zf = s.flag .zf) ∨
        (i = .loopneRel8 rel ∧ zf = !s.flag .zf) →
      b = (decide (s.view s.ctx.asz .ecx ≠ 1) && zf) →
      (b = true → s.canNear s.ctx.osz (s.nextEip + rel.signExtend 32) = true) →
      exec i s = .next ((s.setView s.ctx.asz .ecx (s.view s.ctx.asz .ecx - 1)).branched b s.ctx.osz
        (s.nextEip + rel.signExtend 32)))

/-- CALL near pushes the return address and transfers; RET pops it and releases its operand. -/
def Obligations.NearCallsRun : Prop :=
  ∀ s, s.plainWalks = true →
    (∀ rel, s.canPush s.ctx.osz.bytes = true → s.canNear s.ctx.osz (s.nextEip + relz s.ctx.osz rel) = true →
      exec (.callRelz rel) s =
        .next ((s.pushed s.ctx.osz.bytes s.nextEip.toNat).jumped s.ctx.osz (s.nextEip + relz s.ctx.osz rel))) ∧
    (∀ rm, s.locReadable s.ctx.osz (locate s rm) = true → s.canPush s.ctx.osz.bytes = true →
      s.canNear s.ctx.osz ((s.locValue s.ctx.osz (locate s rm)).setWidth 32) = true →
      exec (.callRmv rm) s = .next ((s.pushed s.ctx.osz.bytes s.nextEip.toNat).jumped s.ctx.osz
        ((s.locValue s.ctx.osz (locate s rm)).setWidth 32))) ∧
    (s.canPop s.ctx.osz.bytes = true → s.canNear s.ctx.osz (BitVec.ofNat 32 (s.top s.ctx.osz.bytes)) = true →
      exec .ret s = .next ((s.popped s.ctx.osz.bytes).jumped s.ctx.osz (BitVec.ofNat 32 (s.top s.ctx.osz.bytes))) ∧
      ∀ iw, exec (.retIw iw) s = .next (((s.popped s.ctx.osz.bytes).released iw).jumped s.ctx.osz
        (BitVec.ofNat 32 (s.top s.ctx.osz.bytes))))

/-- Far JMP, far CALL and RETF, in real mode and in protected mode, to the same level and, for RETF, to an outer one. The
upper half of a selector pushed in 32 bits and of an outer stack pointer popped in 16 are free values (log 4). That the
accessed mark of a descriptor is written also when it is there already is the model's reading (log 23). -/
def Obligations.FarTransfersRun : Prop :=
  ∀ s, s.plainWalks = true →
    (∀ sel off, s.canFar s.ctx.osz sel off = true →
      ((s.pe = true → s.canMark sel = true) →
        exec (.jmpFarPtr off sel) s = .next (s.farLoaded s s.ctx.osz sel off)) ∧
      (∀ x, x = s.returnPushed s.ctx.osz.bytes → s.canPushReturn s.ctx.osz.bytes = true →
        (s.pe = true → x.canMark sel = true) →
        exec (.callFarPtr off sel) s = .next (s.farLoaded x s.ctx.osz sel off))) ∧
    (∀ m g a p sel off, (g, a) = memLoc s m → s.readable g a (s.ctx.osz.bytes + 2) = true →
      p = s.loadFrom g a (s.ctx.osz.bytes + 2) → sel = farSelector s.ctx.osz p → off = farOffset s.ctx.osz p →
      s.canFar s.ctx.osz sel off = true →
      ((s.pe = true → s.canMark sel = true) →
        exec (.jmpFarMem m) s = .next (s.farLoaded s s.ctx.osz sel off)) ∧
      (∀ x, x = s.returnPushed s.ctx.osz.bytes → s.canPushReturn s.ctx.osz.bytes = true →
        (s.pe = true → x.canMark sel = true) →
        exec (.callFarMem m) s = .next (s.farLoaded x s.ctx.osz sel off))) ∧
    (∀ x y off sel iw, s.canPop s.ctx.osz.bytes = true → x = s.popped s.ctx.osz.bytes →
      x.canPop s.ctx.osz.bytes = true → y = x.popped s.ctx.osz.bytes →
      off = BitVec.ofNat 32 (s.top s.ctx.osz.bytes) → sel = BitVec.ofNat 16 (x.top s.ctx.osz.bytes) →
      (y.canFarReturn s.ctx.osz sel off iw = true →
        exec (.retfIw iw) s = .next (y.farReturned s.ctx.osz sel off iw)) ∧
      (y.canFarReturn s.ctx.osz sel off 0 = true → exec .retf s = .next (y.farReturned s.ctx.osz sel off 0)))

/-- INT n, INT3 and INTO deliver their vector with the next instruction as return address; a vector that the host serves
is called instead, and EIP moves on (log 7) with the call added to the list in the state (log 6). In a 32-bit frame the upper
halves of selector slots are free values (log 4); that the delivery clears the single-step latch and leaves the depth as it
was is the model's choice (logs 13 and 14). -/
def Obligations.SoftInterruptsRun : Prop :=
  (∀ s i vec, s.plainWalks = true →
    ((i = .intIb vec) ∨ (i = .int3 ∧ vec = 3) ∨ (i = .into ∧ vec = 4 ∧ s.flag .of = true)) →
    (s.guestVector vec = true → s.canDeliver vec .softInt none s.nextEip = true →
      exec i s = .next (s.delivered vec .softInt none s.nextEip)) ∧
    (s.guestVector vec = false → exec i s = .next { s.hostCall
      (if vec = 0x2F ∧ s.view .b8 .esp ∈ s.params.multiplexHandlers then .multiplex (s.view .b8 .esp)
       else .interrupt vec) with eip := s.nextEip })) ∧
  (∀ s, s.plainWalks = true → s.flag .of = false → exec .into s = .next s.advanced)

/-- IRET pops EIP, CS and the flags, returns as RETF does, and loads the flags its privilege allows; NT in protected mode
and a return to virtual-8086 mode are refused by name, with the state as it was (log 9). The upper half of an outer stack
pointer popped in 16 bits is a free value (log 4). -/
def Obligations.InterruptReturnRuns : Prop :=
  ∀ s, s.plainWalks = true →
    (s.pe = true → s.flag .nt = true → exec .iret s = .refused (.unimplemented .taskReturn s)) ∧
    (∀ n x y z off sel fl, n = s.ctx.osz.bytes → (s.pe = false ∨ s.flag .nt = false) →
      s.canPop n = true → x = s.popped n → x.canPop n = true → y = x.popped n → y.canPop n = true → z = y.popped n →
      off = BitVec.ofNat 32 (s.top n) → sel = BitVec.ofNat 16 (x.top n) → fl = BitVec.ofNat 32 (y.top n) →
      (s.pe = true → s.ctx.osz = .b32 → s.cpl = 0 → fl.getLsbD 17 = true →
        exec .iret s = .refused (.unimplemented .virtual8086Return s)) ∧
      (¬(s.pe = true ∧ s.ctx.osz = .b32 ∧ s.cpl = 0 ∧ fl.getLsbD 17 = true) →
        z.canFarReturn s.ctx.osz sel off 0 = true →
        exec .iret s = .next ((z.farReturned s.ctx.osz sel off 0).withFlags fun old =>
          maskedFlags (popMask s.priv0 s.ioPriv) old fl)))

/-! ### Encoding and fetch -/

/-- Every well-formed instruction is decoded from its encoding, whatever follows: decode of encode is the identity, with
every operand at every value. -/
def Obligations.EncodeThenDecode : Prop :=
  ∀ (pe : Bool) (c : Ctx) (i : Instr) (rest : List Byte), i.wf c = true →
    (pe = false → ∀ rm, i ≠ .sldtRm16 rm ∧ i ≠ .strRm16 rm ∧ i ≠ .lldtRm16 rm ∧ i ≠ .ltrRm16 rm) →
    decode pe c.big (i.encode c ++ rest) = .ok c i rest

/-- What the decoder accepts within 15 bytes is a well-formed instruction, and the bytes are its encoding: no two
encodings are taken for each other, and nothing ill-formed is decoded. -/
def Obligations.DecodeThenEncode : Prop :=
  ∀ (pe big : Bool) (bs : List Byte) (c : Ctx) (i : Instr) (rest : List Byte), bs.length ≤ 15 →
    decode pe big bs = .ok c i rest → bs = i.encode c ++ rest ∧ i.wf c = true ∧ c.big = big

/-- Words written out from the encoding tables decode to what they stand for. -/
def Obligations.WordsDecode : Prop :=
  decode false false [0x04, 0x01] = .ok ⟨[], false, 2⟩ (.addAlIb 0x01) [] ∧
  decode false false [0x66, 0x05, 0x78, 0x56, 0x34, 0x12] = .ok ⟨[.opSize], false, 6⟩ (.addEaxIz 0x12345678) [] ∧
  decode false false [0x26, 0x8A, 0x47, 0x05] =
    .ok ⟨[.seg .es], false, 4⟩ (.movR8Rm8 .eax (.mem (.ind16 .bx (.d8 0x05)))) [] ∧
  decode true true [0x8B, 0x44, 0x8D, 0xFC] =
    .ok ⟨[], true, 4⟩ (.movRvRmv .eax (.mem (.sib 2 .ecx .ebp (.d8 0xFC)))) [] ∧
  decode false false [0xF3, 0xA4] = .ok ⟨[.rep], false, 2⟩ .movsB [] ∧
  decode false false [0xEA, 0x00, 0x10, 0x08, 0x00] = .ok ⟨[], false, 5⟩ (.jmpFarPtr 0x1000 0x0008) [] ∧
  decode true false [0x0F, 0x00, 0xD8] = .ok ⟨[], false, 3⟩ (.ltrRm16 (.reg .eax)) []

/-- After any prefix bytes, every opcode byte and group slot that the opcode maps leave empty is rejected, and, without a
LOCK prefix, so are the forms outside a row's operand constraint: mod = 3 where the row needs memory, the segment, control
and debug registers that do not exist, and SLDT, STR, LLDT, LTR in real mode. -/
def Obligations.EmptySlotsAndInvalidFormsAreRejected : Prop :=
  ∀ (pe big : Bool) (ps : List Pfx) (rest : List Byte) (md : BitVec 2) (g rm : BitVec 3),
    (∀ b ∈ [0x27, 0x2F, 0x37, 0x3F, 0x62, 0x63, 0x82, 0x9B, 0xC8, 0xD4, 0xD5, 0xD6, 0xD8, 0xD9, 0xDA, 0xDB, 0xDC, 0xDD,
        0xDE, 0xDF, 0xF1],
      decode pe big (ps.map Pfx.byte ++ b :: rest) = .reject .noRow) ∧
    (∀ b : Byte, b ∉ [0x00, 0x01, 0x06, 0x20, 0x21, 0x22, 0x23, 0xA0, 0xA1, 0xA4, 0xA5, 0xA8, 0xA9, 0xAC, 0xAD, 0xAF,
        0xB2, 0xB4, 0xB5, 0xB6, 0xB7, 0xBE, 0xBF] → b.extractLsb' 4 4 ≠ 8 → b.extractLsb' 4 4 ≠ 9 →
      decode pe big (ps.map Pfx.byte ++ 0x0F :: b :: rest) = .reject .noRow) ∧
    (∀ b gs, (b, gs) ∈ [(0x8F, [1, 2, 3, 4, 5, 6, 7]), (0xC0, [6]), (0xC1, [6]), (0xC6, [1, 2, 3, 4, 5, 6, 7]),
        (0xC7, [1, 2, 3, 4, 5, 6, 7]), (0xD0, [6]), (0xD1, [6]), (0xD2, [6]), (0xD3, [6]), (0xF6, [1]), (0xF7, [1]),
        (0xFE, [2, 3, 4, 5, 6, 7]), (0xFF, [7])] →
      g ∈ gs → decode pe big (ps.map Pfx.byte ++ b :: (md ++ g ++ rm) :: rest) = .reject .noRow) ∧
    (g ∈ [4, 5, 6, 7] → decode pe big (ps.map Pfx.byte ++ 0x0F :: 0x00 :: (md ++ g ++ rm) :: rest) = .reject .noRow) ∧
    (g ∈ [5, 7] → decode pe big (ps.map Pfx.byte ++ 0x0F :: 0x01 :: (md ++ g ++ rm) :: rest) = .reject .noRow) ∧
    (Pfx.lock ∉ ps →
      (∀ b ∈ [0x8D, 0xC4, 0xC5],
        decode pe big (ps.map Pfx.byte ++ b :: ((3 : BitVec 2) ++ g ++ rm) :: rest) = .reject .invalidForm) ∧
      (g = 3 ∨ g = 5 →
        decode pe big (ps.map Pfx.byte ++ 0xFF :: ((3 : BitVec 2) ++ g ++ rm) :: rest) = .reject .invalidForm) ∧
      (∀ b ∈ [0xB2, 0xB4, 0xB5],
        decode pe big (ps.map Pfx.byte ++ 0x0F :: b :: ((3 : BitVec 2) ++ g ++ rm) :: rest) = .reject .invalidForm) ∧
      (g ∈ [0, 1, 2, 3] →
        decode pe big (ps.map Pfx.byte ++ 0x0F :: 0x01 :: ((3 : BitVec 2) ++ g ++ rm) :: rest) = .reject .invalidForm ∧
        decode false big (ps.map Pfx.byte ++ 0x0F :: 0x00 :: (md ++ g ++ rm) :: rest) = .reject .realModeRow) ∧
      (g ∈ [6, 7] → decode pe big (ps.map Pfx.byte ++ 0x8C :: (md ++ g ++ rm) :: rest) = .reject .invalidForm) ∧
      (g ∈ [1, 6, 7] → decode pe big (ps.map Pfx.byte ++ 0x8E :: (md ++ g ++ rm) :: rest) = .reject .invalidForm) ∧
      (∀ b ∈ [0x20, 0x22], g ∈ [1, 4, 5, 6, 7] →
        decode pe big (ps.map Pfx.byte ++ 0x0F :: b :: (md ++ g ++ rm) :: rest) = .reject .invalidForm) ∧
      (∀ b ∈ [0x21, 0x23], g ∈ [4, 5] →
        decode pe big (ps.map Pfx.byte ++ 0x0F :: b :: (md ++ g ++ rm) :: rest) = .reject .invalidForm))

/-- The k-th instruction byte is the byte at CS:EIP + k, as long as every byte so far passes its checks. The first byte
that does not pass ends the fetch with its own stop: #GP(0) outside the CS limit, #PF with CR2 the byte's linear address,
or the end of the run where its page-table entry or the byte itself lies outside memory; the 16th byte ends it with
#GP(0). That a fetch makes no rights check is the model's reading (log 22). -/
def Obligations.FetchReadsCode : Prop :=
  ∀ (s : State) (k : Nat), s.plainWalks = true → k ≤ 15 →
    (∀ j < k, s.segs.cs.inBounds (s.eip + BitVec.ofNat 32 j) 1 = true ∧
      s.backed .fetch s.user (s.linear .cs (s.eip + BitVec.ofNat 32 j)) 1 = true) →
    (∀ j < k, s.fetched.1[j]? =
      some (BitVec.ofNat 8 (s.valueAt s.user (s.linear .cs (s.eip + BitVec.ofNat 32 j)) 1))) ∧
    (k = 15 → s.fetched.1.length = 15 ∧ s.fetched.2 = protection 0) ∧
    ∀ off lin, k < 15 → off = s.eip + BitVec.ofNat 32 k → lin = s.linear .cs off →
      (s.segs.cs.inBounds off 1 = false → s.fetched.1.length = k ∧ s.fetched.2 = protection 0) ∧
      (s.segs.cs.inBounds off 1 = true → s.phys .fetch s.user lin = none →
        s.fetched.1.length = k ∧ s.fetched.2 = s.walkStop .fetch s.user lin) ∧
      (∀ p, s.segs.cs.inBounds off 1 = true → s.phys .fetch s.user lin = some p → s.params.memSize ≤ p.toNat →
        s.fetched.1.length = k ∧ s.fetched.2 = .fatal .physicalOutOfRange)

/-! ### The step -/

/-- At a boundary where the core fetches, a step runs what the bytes at CS:EIP decode to, with the prefix state and the
single-step latch filled in, then the single-step trap. That trap and closing go by the latch, which a delivery clears, and
that the latch and the prefix state are cleared for the next boundary, is the model's choice (logs 13 and 15), and so is that
a refusal carries the state (log 9). -/
def Obligations.StepRunsDecoded : Prop :=
  ∀ s, s.fetches = true →
    (∀ c i rest, s.decoded = .ok c i rest →
      step s = closeStep (trapStep (exec i { s with tfAtStart := s.flag .tf, ctx := c }))) ∧
    (∀ why, s.decoded = .reject why → step s = .refused (.unimplemented (.encoding why) s.atBoundary)) ∧
    (∀ r, s.decoded = .short → s.fetched.2 = .raise r →
      step s = closeStep (deliverEvent r.vec .fault r.err s.eip
        (({ s with tfAtStart := s.flag .tf } : State).withCr2 r.cr2)))

/-- What the machine does at a boundary where it fetches nothing: a latched fatal reason stops it, an interrupt is taken
with the queue one shorter and the core running, a halted core waits, and at a callback slot the device is called and then
the slot acts as a far return, whose fault is delivered with the EIP of the slot. That a host call is a list of free writes,
that EIP stays as an interrupt handler leaves it and what the callback's return pops are the model's choices (logs 7 and
21), and so are the list of calls in the state (log 6), the refusal with the latched reason (log 9), the cleared latch and the
depth of a delivery (logs 13 and 14) and the closing of the step (logs 13 and 15). In a 32-bit frame the upper halves of
selector slots are free values (log 4). -/
def Obligations.BoundaryWithoutFetch : Prop :=
  (∀ s r, s.fatal = some r → step s = .refused (.fatalLatch r)) ∧
  (∀ s v rest x, s.fatal = none → s.flag .intf = true → s.pendingIrq = v :: rest →
    x = { s with pendingIrq := rest, activity := .running } →
    (s.params.emulatedVectors.contains v = true → step s = .next (x.hostCall (.interrupt v)).atBoundary) ∧
    (s.params.emulatedVectors.contains v = false → x.canDeliver v .external none x.eip = true →
      step s = .next { (x.delivered v .external none x.eip).atBoundary with depth := 0 })) ∧
  (∀ s, s.fatal = none → (s.flag .intf = false ∨ s.pendingIrq = []) → s.activity = .halted → step s = .next s) ∧
  (∀ s p x, s.plainWalks = true → s.fatal = none → (s.flag .intf = false ∨ s.pendingIrq = []) → s.activity = .running →
    s.segs.cs.inBounds s.eip 1 = true → s.phys .fetch s.user (s.linear .cs s.eip) = some p →
    s.params.callbackSlots.contains p = true → x = s.hostCall (.callback p) →
    step s = closeStep (settle x s.eip (retFar (if x.segs.cs.ar.db then .b32 else .b16) 0 x))) ∧
  (∀ (s : State) (v : Byte), (s.raiseInterrupt v).pendingIrq = s.pendingIrq ++ [v] ∧
    (s.flag .intf = false → s.fatal = none → s.activity = .halted →
      step (s.raiseInterrupt v) = .next (s.raiseInterrupt v)))

/-- An instruction that starts with TF = 1, commits and delivers nothing is followed by vector 1 with the committed EIP; one
that starts with TF = 0 is not, even if it sets TF. That nothing was delivered is read off the single-step latch, which a
delivery clears: the model's choice (log 13), as is the depth 0 after it (log 14). That the step ends with the latch and the
prefix state (10_state R53) clear is the model's choice too (logs 13 and 15). In a 32-bit frame the upper halves of selector
slots are free values (log 4). -/
def Obligations.SingleStepTraps : Prop :=
  ∀ s c i rest t, s.fetches = true → s.decoded = .ok c i rest →
    exec i { s with tfAtStart := s.flag .tf, ctx := c } = .next t → t.tfAtStart = s.flag .tf →
    (s.flag .tf = false → step s = .next t.atBoundary) ∧
    (s.flag .tf = true → t.canDeliver 1 .trap none t.eip = true →
      step s = .next { (t.delivered 1 .trap none t.eip).atBoundary with depth := 0 })

/-- What reset leaves in every register that the spec gives a value: the table is the spec's own decision (10_state R60,
92_eei_decisions D32), and the general registers and memory are whatever they are given. -/
def Obligations.ResetValues : Prop :=
  ∀ params regs mem, ∀ s, s = State.resetWith params regs mem →
    s.eip = 0 ∧ s.eflags = 0x00000002 ∧
    (∀ r, s.seg r = ⟨0, 0, 0x0000FFFF, ⟨3, true, 0, true, false, false⟩, true⟩) ∧
    s.gdtr = { base := 0, limit := 0xFFFF } ∧ s.idtr = { base := 0, limit := 0x03FF } ∧
    s.ldtr = { sel := 0, base := 0, limit := 0, valid := false } ∧
    s.tr = { sel := 0, base := 0, limit := 0, valid := false, is32 := false } ∧
    s.cr0 = 0 ∧ s.cr2 = 0 ∧ s.cr3 = 0 ∧ s.dr = ⟨0, 0, 0, 0, 0, 0⟩ ∧ s.activity = .running ∧ s.pendingIrq = [] ∧
    s.tfAtStart = false ∧ s.depth = 0 ∧ s.fatal = none ∧ s.regs = regs ∧ s.mem = mem

/-- The invariant of a boundary holds at reset. The size of memory there, the values of the general registers and what
unwritten memory reads as are the model's choices (logs 1, 2 and 3), and so is that State holds a prefix state (10_state
R53) and that it is clear at reset as at every boundary (log 15). -/
def Obligations.ResetMeetsInvariant : Prop :=
  State.reset.Inv

/-- Every step keeps the invariant: memory stays in its canonical form and in range, EFLAGS keeps its fixed bits, and
nothing of the step is left over. The canonical form is the model's own (log 3), that a host handler keeps the fixed bits and
writes only in range is read into the spec (log 8), and that the latch and the prefix state are clear at a boundary is the
model's choice (logs 13 and 15). -/
def Obligations.StepKeepsInvariant : Prop :=
  ∀ s t, s.Inv → step s = .next t → t.Inv

/-- The system registers are written only by their own instructions, and CR2 also by a page fault (10_state R43 to R49):
no other instruction changes one, unless a host handler does. -/
def Obligations.SystemRegistersGuarded : Prop :=
  ∀ i s t, s.noHandlers = true → exec i s = .next t →
    (t.gdtr = s.gdtr ∨ ∃ m, i = .lgdtM m) ∧ (t.idtr = s.idtr ∨ ∃ m, i = .lidtM m) ∧
    (t.ldtr = s.ldtr ∨ ∃ rm, i = .lldtRm16 rm) ∧ (t.tr = s.tr ∨ ∃ rm, i = .ltrRm16 rm) ∧
    (t.dr = s.dr ∨ ∃ md k r, i = .movDrR32 md k r) ∧
    (t.cr0 = s.cr0 ∨ (∃ md r, i = .movCrR32 md .cr0 r) ∨ (∃ rm, i = .lmswRm16 rm) ∨ i = .clts) ∧
    (t.cr3 = s.cr3 ∨ ∃ md r, i = .movCrR32 md .cr3 r) ∧
    (s.paging = false → t.cr2 = s.cr2 ∨ ∃ md r, i = .movCrR32 md .cr2 r) ∧ t.params = s.params

/-- A step of a program that is not at level 0 changes no table register, no control register but CR2, no debug register
and no I/O privilege level, unless the host has registered a handler. -/
def Obligations.UserStepsKeepSystemState : Prop :=
  ∀ s t, s.pe = true → s.cpl ≠ 0 → s.noHandlers = true → step s = .next t →
    t.gdtr = s.gdtr ∧ t.idtr = s.idtr ∧ t.ldtr = s.ldtr ∧ t.tr = s.tr ∧ t.cr0 = s.cr0 ∧ t.cr3 = s.cr3 ∧ t.dr = s.dr ∧
      t.iopl = s.iopl ∧ t.params = s.params

/-- In protected mode the level becomes more privileged only by taking an exception or a software interrupt, and less
privileged only by RETF or IRET. -/
def Obligations.LevelChanges : Prop :=
  ∀ i s t, i.wf s.ctx = true → s.pe = true → s.noHandlers = true → exec i s = .next t →
    (t.cpl < s.cpl → TookFault s t ∨ (∃ v, i = .intIb v) ∨ i = .int3 ∨ i = .into) ∧
    (s.cpl < t.cpl → i = .retf ∨ (∃ iw, i = .retfIw iw) ∨ i = .iret)


/-! ### The end of a run -/

/-- What a step that ends the run leaves: all that was committed before the failing transaction, and nothing of it but the
CR2 of a page fault. So an instruction leaves the state before it; a single-step trap that cannot be delivered leaves the
committed instruction; an interrupt that cannot be delivered leaves its vector removed and the core running; a callback
whose return fails leaves the writes of the host call. A run stops there with the reason latched and changes nothing more,
and running k and then m steps is running k + m. That the stop carries the state (log 9), that what was committed stays
(log 26, read from 60_exceptions R496, R500 and R508), the host call and the order at a callback slot (logs 6, 7 and 21) and
the closing of the step (logs 13, 14 and 15) are the model's. -/
def Obligations.StopsLeaveWhatWasCommitted : Prop :=
  (∀ i s u, s.depth = 0 → stopLeft (exec i s) = some u → u = { s with cr2 := u.cr2 }) ∧
  (∀ s c i rest t u, s.fetches = true → s.decoded = .ok c i rest →
    exec i { s with tfAtStart := s.flag .tf, ctx := c } = .next t → stopLeft (step s) = some u →
    u = { t.atBoundary with cr2 := u.cr2, depth := 0 }) ∧
  (∀ s v rest u, s.fatal = none → s.flag .intf = true → s.pendingIrq = v :: rest → stopLeft (step s) = some u →
    u = { s.atBoundary with pendingIrq := rest, activity := .running, cr2 := u.cr2, depth := 0 }) ∧
  (∀ s p, s.plainWalks = true → s.fatal = none → (s.flag .intf = false ∨ s.pendingIrq = []) → s.activity = .running →
    s.depth = 0 → s.segs.cs.inBounds s.eip 1 = true → s.phys .fetch s.user (s.linear .cs s.eip) = some p →
    s.params.callbackSlots.contains p = true →
    stopLeft (step s) = none ∨
      ∃ c, stopLeft (step s) = some { (s.hostCall (.callback p)).atBoundary with cr2 := c }) ∧
  (∀ s u k, (step s = .fault (.doubleFault u) → s.runBudget (k + 1) = (u.latch .doubleFault, some .doubleFault)) ∧
    (step s = .fault (.physicalOutOfRange u) →
      s.runBudget (k + 1) = (u.latch .physicalOutOfRange, some .physicalOutOfRange)) ∧
    (∀ why, step s = .refused (.unimplemented why u) →
      s.runBudget (k + 1) = (u.latch .unimplemented, some .unimplemented))) ∧
  (∀ (s t : State) k r, s.runBudget k = (t, some r) → t.fatal = some r ∧ ∀ m, t.runBudget m = (t, some r)) ∧
  (∀ (s : State) k m, s.runBudget (k + m) = (s.runBudget k).1.runBudget m)

/-! ### Taking an exception -/

/-- Delivery in real mode: the vector's entry is read from the table, FLAGS, CS and the return address are pushed in 16
bits whatever the event, IF and TF are cleared, and control is at the entry's segment and offset. That the single-step latch
is cleared and the depth is back at 0 is the model's choice (logs 13 and 14). -/
def Obligations.RealModeDelivery : Prop :=
  ∀ s vec src err ret, s.plainWalks = true → s.canVector vec ret = true →
    deliverEvent vec src err ret s = .next { s.vectored vec ret with depth := 0 }

/-- Delivery in protected mode through an interrupt or trap gate, to the interrupted level and, with the stack that the
TSS gives, to an inner one: the frame in the gate's width, the error code only for a fault of vectors 10 to 14, TF and NT
cleared, and IF through an interrupt gate. The upper halves of 32-bit selector slots are free values (log 4); that the
single-step latch is cleared and the depth is back at 0 is the model's choice (logs 13 and 14). -/
def Obligations.GateDelivery : Prop :=
  ∀ s vec src err ret, s.plainWalks = true →
    (s.canGate vec src err ret = true →
      deliverEvent vec src err ret s = .next { s.gated vec src err ret with depth := 0 }) ∧
    (s.canGateInner vec src err ret = true →
      deliverEvent vec src err ret s = .next { s.gatedInner vec src err ret with depth := 0 })

/-- A vector beyond the table limit: the delivery is discarded and #GP delivered in its place with the same return
address; if that is beyond the limit too, the double fault ends the run and leaves the state before the delivery. That the
stop carries that state (log 9) and the latch and the depth of a delivery that succeeds (logs 13 and 14) are the model's
choices; the upper halves of 32-bit selector slots are free values (log 4). -/
def Obligations.NestedDelivery : Prop :=
  ∀ s vec src err ret e, s.plainWalks = true →
    e = (if s.pe then BitVec.ofNat 16 (vec.toNat * 8 + 2 + (if src = .softInt then 0 else 1)) else (0 : Half)) →
    s.idtr.limit.toNat < (if s.pe then vec.toNat * 8 + 7 else vec.toNat * 4 + 3) →
    (s.canDeliver 13 .fault (some e) ret = true →
      deliverEvent vec src err ret s = .next { s.delivered 13 .fault (some e) ret with depth := 0 }) ∧
    (s.idtr.limit.toNat < (if s.pe then 111 else 55) → deliverEvent vec src err ret s = .fault (.doubleFault { s with depth := 0 }))

/-- In real mode IRET at the handler gives back the registers, CS, EIP and flags that delivery saved. The single-step latch
stays as the delivery cleared it (log 13). -/
def Obligations.ReturnUndoesDelivery : Prop :=
  ∀ (s : State) vec ret t, Memory.wf s.mem = true → s.plainWalks = true → s.flagsFixed = true → s.ctx.osz = .b16 →
    s.segs.cs.base = s.segs.cs.sel.setWidth 32 <<< 4 → s.segs.cs.valid = true →
    ret.toNat ≤ s.segs.cs.limit.toNat → ret.toNat < 65536 →
    s.canVector vec ret = true → t = s.vectored vec ret →
    exec .iret t = .next { t with regs := s.regs, segs := s.segs, eip := ret, eflags := s.eflags }

/-- The faults of a memory operand, for the byte forms and the word and doubleword forms of MOV load, MOV store and ADD to
memory: #SS(0) through SS and #GP(0) otherwise outside the segment or against its rights (#GP(0) for a read of execute-only
code), and where a page walk does not allow the access #PF with its error code and CR2 the first byte refused, in each case
with none of the instruction's effect. Where an entry or a byte lies outside memory the run ends and leaves the state before
the instruction. That all bytes are translated before any is accessed is the model's reading (log 18), and so is that the
stop carries the state (log 9). -/
def Obligations.OperandFaults : Prop :=
  ∀ (s : State) (w : Size) (r : Reg) (m : MemOp) (g : SReg) (off : Word) (load store add : Instr) (v : Byte),
    s.plainWalks = true → (g, off) = memLoc s m → (w = .b8 ∨ w = s.ctx.osz) →
    load = (if w = .b8 then Instr.movR8Rm8 r (.mem m) else .movRvRmv r (.mem m)) →
    store = (if w = .b8 then Instr.movRm8R8 (.mem m) r else .movRmvRv (.mem m) r) →
    add = (if w = .b8 then Instr.addRm8R8 (.mem m) r else .addRmvRv (.mem m) r) →
    v = (if g = .ss then 12 else 13) →
    ((s.seg g).inBounds off w.bytes = false →
      ∀ i ∈ [load, store, add], exec i s = s.faulted v (some 0)) ∧
    ((s.seg g).inBounds off w.bytes = true → s.mayRead g = false →
      ∀ i ∈ [load, add], exec i s = s.faulted (if (s.seg g).valid then 13 else v) (some 0)) ∧
    ((s.seg g).inBounds off w.bytes = true → s.mayWrite g = false →
      exec store s = s.faulted v (some 0) ∧ (s.readable g off w.bytes = true → exec add s = s.faulted v (some 0))) ∧
    (∀ k lin, (s.seg g).inBounds off w.bytes = true → lin = s.linear g off + BitVec.ofNat 32 k →
      (s.mayRead g = true → s.blockedAt .read g off w.bytes k = true →
        ∀ i ∈ [load, add], exec i s = s.blockedStep .read lin) ∧
      (s.mayWrite g = true → s.blockedAt .write g off w.bytes k = true →
        exec store s = s.blockedStep .write lin ∧
        (s.readable g off w.bytes = true → exec add s = s.blockedStep .write lin))) ∧
    ((s.seg g).inBounds off w.bytes = true →
      (s.mayRead g = true → s.leavesMemory .read g off w.bytes = true →
        ∀ i ∈ [load, add], exec i s = .fault (.physicalOutOfRange s)) ∧
      (s.mayWrite g = true → s.leavesMemory .write g off w.bytes = true →
        exec store s = .fault (.physicalOutOfRange s)))

/-! ### Memory, segments and pages -/

/-- Physical reads and writes are little-endian, each byte at its address modulo 2^32: a write stores its bytes and no
others; an address at or above MEM_SIZE stops the run, which is the spec's own choice (20_memory R82, 92_eei_decisions D9).
That a write keeps the canonical form is of the model's memory (log 3). -/
def Obligations.PhysicalAccesses : Prop :=
  ∀ (s : State) (a : Word) (n v : Nat),
    (s.inRam (addrs a n) = true →
      (∃ k, memRead a n s = .ok (k, s) ∧ k < 256 ^ n ∧
        ∀ i < n, k / 256 ^ i % 256 = (Memory.read s.mem (a + BitVec.ofNat 32 i).toNat).toNat) ∧
      (∃ t, memWrite a n v s = .ok ((), t) ∧ { t with mem := s.mem } = s ∧
        (Memory.wf s.mem = true → n ≤ 4294967296 → Memory.wf t.mem = true ∧
          (∀ i < n, Memory.read t.mem (a + BitVec.ofNat 32 i).toNat = BitVec.ofNat 8 (v / 256 ^ i)) ∧
          ∀ b, (∀ i < n, b ≠ (a + BitVec.ofNat 32 i).toNat) → Memory.read t.mem b = Memory.read s.mem b))) ∧
    (s.inRam (addrs a n) = false →
      memRead a n s = .error (.fatal .physicalOutOfRange) ∧ memWrite a n v s = .error (.fatal .physicalOutOfRange))

/-- The limit check, in both modes and for expand-down segments, and the rights check of protected mode. That a fetch
passes with any rights, with a null selector and through any register is the model's reading of 20_memory R103 (log 22). -/
def Obligations.SegmentChecks : Prop :=
  ∀ (s : State) (r : SReg) (off : Word) (n : Nat) (g : Segment) (e : Stop), g = s.seg r → 0 < n →
    e = (if r = .ss then stackFault 0 else protection 0) →
    ∀ inside : Prop,
      (inside ↔ if g.ar.s = true ∧ g.ar.type.getLsbD 3 = false ∧ g.ar.type.getLsbD 2 = true then
        g.limit.toNat < off.toNat ∧ off.toNat + n - 1 ≤ (if g.ar.db then 0xFFFFFFFF else 0xFFFF)
        else off.toNat + n - 1 ≤ g.limit.toNat) →
    (¬inside → ∀ acc, checkSegment r off n acc s = .error e) ∧
    (inside → s.pe = false → ∀ acc, checkSegment r off n acc s = .ok ((), s)) ∧
    (inside → s.pe = true →
      checkSegment r off n .fetch s = .ok ((), s) ∧
      (g.valid = false → checkSegment r off n .read s = .error e ∧ checkSegment r off n .write s = .error e) ∧
      (g.valid = true →
        checkSegment r off n .write s =
          (if g.ar.type.getLsbD 3 = false ∧ g.ar.type.getLsbD 1 = true then .ok ((), s) else .error e) ∧
        checkSegment r off n .read s =
          (if g.ar.type.getLsbD 3 = true ∧ g.ar.type.getLsbD 1 = false then .error (protection 0) else .ok ((), s))))

/-- The two-level walk: what it answers, and the page faults with their error codes; with PAGING_SETS_AD false it writes
nothing. -/
def Obligations.PageTranslation : Prop :=
  ∀ (s : State) (acc : Access) (user : Bool) (lin : Word),
    (s.paging = false → translate acc user lin s = .ok (lin, s)) ∧
    (∀ (pdeAt pteAt pde pte : Word) (e : Half), s.paging = true → s.plainWalks = true →
      e = (if acc = .write then 2 else 0) ||| (if user then 4 else 0) →
      pdeAt = (s.cr3 &&& 0xFFFFF000) + (lin >>> 22) * 4 → s.entry pdeAt = some pde →
      (pde.getLsbD 0 = false → translate acc user lin s = .error (.raise ⟨14, some e, some lin⟩)) ∧
      (pde.getLsbD 0 = true → pteAt = (pde &&& 0xFFFFF000) + ((lin >>> 12) &&& 0x3FF) * 4 →
        s.entry pteAt = some pte → ∀ allowed : Prop,
        (allowed ↔ (user = true → pde.getLsbD 2 = true ∧ pte.getLsbD 2 = true) ∧
          (acc = .write → user = true ∨ s.params.supervisorWriteProtect = true →
            pde.getLsbD 1 = true ∧ pte.getLsbD 1 = true)) →
        (pte.getLsbD 0 = false → translate acc user lin s = .error (.raise ⟨14, some e, some lin⟩)) ∧
        (pte.getLsbD 0 = true → ¬allowed → translate acc user lin s = .error (.raise ⟨14, some (e ||| 1), some lin⟩)) ∧
        (pte.getLsbD 0 = true → allowed →
          translate acc user lin s = .ok ((pte &&& 0xFFFFF000) ||| (lin &&& 0xFFF), s))))

/-- With PAGING_SETS_AD a successful walk sets the accessed bits and, for a write, the dirty bit, and changes nothing
else. -/
def Obligations.PageWalksMarkEntries : Prop :=
  ∀ (s : State) (acc : Access) (user : Bool) (lin p pdeAt pteAt pde pte : Word), Memory.wf s.mem = true →
    s.params.pagingSetsAD = true → s.paging = true → s.phys acc user lin = some p →
    pdeAt = (s.cr3 &&& 0xFFFFF000) + (lin >>> 22) * 4 → s.entry pdeAt = some pde →
    pteAt = (pde &&& 0xFFFFF000) + ((lin >>> 12) &&& 0x3FF) * 4 → s.entry pteAt = some pte → pdeAt ≠ pteAt →
    ∃ t, translate acc user lin s = .ok (p, t) ∧ { t with mem := s.mem } = s ∧ t.entry pdeAt = some (pde ||| 0x20) ∧
      t.entry pteAt = some (pte ||| 0x20 ||| (if acc = .write then 0x40 else 0)) ∧
      ∀ a, a ∉ (addrs pdeAt 4 ++ addrs pteAt 4).map BitVec.toNat → Memory.read t.mem a = Memory.read s.mem a

/-- The fields of a descriptor and of a gate, from the eight bytes in memory order: the layout is the spec's own decision
(20_memory R110, 92_eei_decisions D50), the limit in bytes is 20_memory R112. -/
def Obligations.DescriptorFields : Prop :=
  ∀ (d0 d1 d2 d3 d4 d5 d6 d7 : Byte) (d : Desc), d = d7 ++ d6 ++ d5 ++ d4 ++ d3 ++ d2 ++ d1 ++ d0 →
    d.base = d7 ++ d4 ++ d3 ++ d2 ∧ d.limit20 = d6.extractLsb' 0 4 ++ d1 ++ d0 ∧
    d.rights = { type := d5.extractLsb' 0 4, s := d5.getLsbD 4, dpl := d5.extractLsb' 5 2, p := d5.getLsbD 7, db := d6.getLsbD 6, g := d6.getLsbD 7 } ∧
    d.byteLimit.toNat = (if d6.getLsbD 7 then d.limit20.toNat * 4096 + 4095 else d.limit20.toNat) ∧
    d.gateSelector = d3 ++ d2 ∧ d.gateOffset true = d7 ++ d6 ++ d1 ++ d0 ∧
    d.gateOffset false = (0 : Half) ++ d1 ++ d0

/-- ReadDescriptor: the table a selector names, its bounds check, and the fault with the selector as error code. -/
def Obligations.DescriptorLookup : Prop :=
  ∀ (s : State) (sel : Half) (vec : Byte) (ext : Bool) (tb : Word) (tl : Nat) (e : Half), s.plainWalks = true →
    e = (sel &&& 0xFFFC) ||| (if ext then 1 else 0) →
    tb = (if sel.getLsbD 2 then s.ldtr.base else s.gdtr.base) →
    tl = (if sel.getLsbD 2 then s.ldtr.limit.toNat else s.gdtr.limit.toNat) →
    (sel.getLsbD 2 = true → s.ldtr.valid = false → readDescriptor sel vec ext s = .error (.raise ⟨vec, some e, none⟩)) ∧
    (tl < sel.toNat / 8 * 8 + 7 → readDescriptor sel vec ext s = .error (.raise ⟨vec, some e, none⟩)) ∧
    (sel.toNat / 8 * 8 + 7 ≤ tl → (sel.getLsbD 2 = true → s.ldtr.valid = true) →
      s.backed .read false (tb + BitVec.ofNat 32 (sel.toNat / 8 * 8)) 8 = true →
      readDescriptor sel vec ext s =
        .ok (BitVec.ofNat 64 (s.valueAt false (tb + BitVec.ofNat 32 (sel.toNat / 8 * 8)) 8), s))

/-- Effective addresses of both sizes, with the default segment of each and the override that replaces it. -/
def Obligations.EffectiveAddresses : Prop :=
  ∀ (s : State),
    (∀ b regs g, (b, regs, g) ∈ [(Base16.bxSi, [Reg.ebx, .esi], SReg.ds), (.bxDi, [.ebx, .edi], .ds),
        (.bpSi, [.ebp, .esi], .ss), (.bpDi, [.ebp, .edi], .ss), (.si, [.esi], .ds), (.di, [.edi], .ds),
        (.bp, [.ebp], .ss), (.bx, [.ebx], .ds)] →
      ∀ n, n = (regs.map fun r => (s.regs.get r).toNat).sum →
      memLoc s (.ind16 b .none) = (segmentOr s.ctx g, BitVec.ofNat 32 (n % 65536)) ∧
      (∀ v, memLoc s (.ind16 b (.d8 v)) =
        (segmentOr s.ctx g, BitVec.ofNat 32 ((n + (v.signExtend 16).toNat) % 65536))) ∧
      (∀ v, memLoc s (.ind16 b (.d16 v)) = (segmentOr s.ctx g, BitVec.ofNat 32 ((n + v.toNat) % 65536)))) ∧
    (∀ v, memLoc s (.abs16 v) = (segmentOr s.ctx .ds, BitVec.ofNat 32 v.toNat)) ∧
    (∀ v, memLoc s (.abs32 v) = (segmentOr s.ctx .ds, v)) ∧
    (∀ b g, g = (if b = Reg.esp ∨ b = .ebp then SReg.ss else .ds) →
      (∀ d v, (d = .none ∧ v = 0) ∨ (∃ x : Byte, d = .d8 x ∧ v = x.signExtend 32) ∨ d = .d32 v →
        memLoc s (.ind32 b d) = (segmentOr s.ctx g, s.regs.get b + v) ∧
        (∀ sc ix, memLoc s (.sib sc ix b d) = (segmentOr s.ctx g,
          s.regs.get b + (if ix = .esp then 0 else s.regs.get ix * BitVec.ofNat 32 (2 ^ sc.toNat)) + v)))) ∧
    (∀ sc ix v, memLoc s (.sibAbs sc ix v) = (segmentOr s.ctx .ds,
      v + (if ix = .esp then 0 else s.regs.get ix * BitVec.ofNat 32 (2 ^ sc.toNat)))) ∧
    (∀ ps g qs dflt, s.ctx.pfx = ps ++ .seg g :: qs → (∀ q, Pfx.seg q ∉ qs) → segmentOr s.ctx dflt = g) ∧
    (∀ dflt, (∀ q, Pfx.seg q ∉ s.ctx.pfx) → segmentOr s.ctx dflt = dflt)

/-- The views of the general registers: which bits each reads and writes, what a write leaves alone, and that a write is
read back. -/
def Obligations.RegisterViews : Prop :=
  (∀ (s : State) r, s.view .b32 r = s.regs.get r ∧ s.view .b16 r = (s.regs.get r).extractLsb' 0 16) ∧
  (∀ (s : State), s.view .b8 .eax = s.regs.eax.extractLsb' 0 8 ∧ s.view .b8 .ecx = s.regs.ecx.extractLsb' 0 8 ∧
    s.view .b8 .edx = s.regs.edx.extractLsb' 0 8 ∧ s.view .b8 .ebx = s.regs.ebx.extractLsb' 0 8 ∧
    s.view .b8 .esp = s.regs.eax.extractLsb' 8 8 ∧ s.view .b8 .ebp = s.regs.ecx.extractLsb' 8 8 ∧
    s.view .b8 .esi = s.regs.edx.extractLsb' 8 8 ∧ s.view .b8 .edi = s.regs.ebx.extractLsb' 8 8) ∧
  (∀ (s : State) (w : Size) r (v : BitVec w.bits) q k, (s.setView w r v).view w r = v ∧
    ((s.setView w r v).regs.get q).getLsbD k =
      (let home := if w = .b8 then (byteHome r).1 else r
       let lo := if w = .b8 ∧ (byteHome r).2 = true then 8 else 0
       if q = home ∧ lo ≤ k ∧ k < lo + w.bits then v.getLsbD (k - lo) else (s.regs.get q).getLsbD k))

/-! ### Flags and results -/

/-- The sixteen conditions on the flags, and the opcodes whose low four bits number them: 70+cc, 0F 80+cc and 0F 90+cc. -/
def Obligations.ConditionTable : Prop :=
  (∀ (pe big : Bool) (cc : BitVec 4) (ig rm : BitVec 3) (r0 r1 r2 r3 : Byte),
    decode pe big [(7 : BitVec 4) ++ cc, r0] = .ok ⟨[], big, 2⟩ (.jccRel8 (Cond.ofBits cc) r0) [] ∧
    decode pe false [0x0F, (8 : BitVec 4) ++ cc, r0, r1] =
      .ok ⟨[], false, 4⟩ (.jccRelz (Cond.ofBits cc) ((r1 ++ r0).setWidth 32)) [] ∧
    decode pe true [0x0F, (8 : BitVec 4) ++ cc, r0, r1, r2, r3] =
      .ok ⟨[], true, 6⟩ (.jccRelz (Cond.ofBits cc) (r3 ++ r2 ++ r1 ++ r0)) [] ∧
    decode pe big [0x0F, (9 : BitVec 4) ++ cc, (3 : BitVec 2) ++ ig ++ rm] =
      .ok ⟨[], big, 3⟩ (.setccRm8 (Cond.ofBits cc) ig (.reg (Reg.ofBits rm))) []) ∧
  ∀ (fl : Word) (cf pf zf sf of : Bool), cf = fl.getLsbD 0 → pf = fl.getLsbD 2 → zf = fl.getLsbD 6 →
    sf = fl.getLsbD 7 → of = fl.getLsbD 11 →
    condHolds (Cond.ofBits 0) fl = of ∧ condHolds (Cond.ofBits 1) fl = !of ∧ condHolds (Cond.ofBits 2) fl = cf ∧
    condHolds (Cond.ofBits 3) fl = !cf ∧ condHolds (Cond.ofBits 4) fl = zf ∧ condHolds (Cond.ofBits 5) fl = !zf ∧
    condHolds (Cond.ofBits 6) fl = (cf || zf) ∧ condHolds (Cond.ofBits 7) fl = (!cf && !zf) ∧
    condHolds (Cond.ofBits 8) fl = sf ∧ condHolds (Cond.ofBits 9) fl = !sf ∧ condHolds (Cond.ofBits 10) fl = pf ∧
    condHolds (Cond.ofBits 11) fl = !pf ∧ condHolds (Cond.ofBits 12) fl = (sf != of) ∧
    condHolds (Cond.ofBits 13) fl = (sf == of) ∧ condHolds (Cond.ofBits 14) fl = (zf || sf != of) ∧
    condHolds (Cond.ofBits 15) fl = (!zf && sf == of)

/-- The flags of the arithmetic and logic rules bit by bit: CF, OF and AF as each says, ZF, SF and PF from the result, and
every other bit as it was; INC and DEC keep CF, and AF of a logic instruction is a bit of the free value u (log 4). POPF and
IRET: IOPL needs level 0, IF the I/O privilege, bit 1 is set and the bits without a function keep their values. -/
def Obligations.FlagComputations : Prop :=
  ∀ (w : Size) (a b : BitVec w.bits) (c : Bool) (fl u : Word) (k : Nat),
    let status := fun (r : BitVec w.bits) (cf af of : Bool) =>
      if k = 0 then cf else if k = 2 then decide ((List.range 8).countP (fun i => r.getLsbD i) % 2 = 0)
      else if k = 4 then af else if k = 6 then decide (r = 0) else if k = 7 then r.getLsbD (w.bits - 1)
      else if k = 11 then of else fl.getLsbD k
    let low := fun (x : BitVec w.bits) => x.toNat % 16
    (∀ r, r = BitVec.ofNat w.bits (a.toNat + b.toNat + c.toNat) → (addFlags a b c fl).getLsbD k =
      status r (decide (2 ^ w.bits ≤ a.toNat + b.toNat + c.toNat)) (decide (15 < low a + low b + c.toNat))
        (a.getLsbD (w.bits - 1) == b.getLsbD (w.bits - 1) && r.getLsbD (w.bits - 1) != a.getLsbD (w.bits - 1))) ∧
    (∀ r, r = a - b - BitVec.ofNat w.bits c.toNat → (subFlags a b c fl).getLsbD k =
      status r (decide (a.toNat < b.toNat + c.toNat)) (decide (low a < low b + c.toNat))
        (a.getLsbD (w.bits - 1) != b.getLsbD (w.bits - 1) && r.getLsbD (w.bits - 1) != a.getLsbD (w.bits - 1))) ∧
    ((incFlags a fl).getLsbD k =
      status (a + 1) (fl.getLsbD 0) (decide (low a = 15)) (decide (a.toNat = 2 ^ (w.bits - 1) - 1))) ∧
    ((decFlags a fl).getLsbD k =
      status (a - 1) (fl.getLsbD 0) (decide (low a = 0)) (decide (a.toNat = 2 ^ (w.bits - 1)))) ∧
    ((logicFlags u a fl).getLsbD k = status a false (u.getLsbD 4) false) ∧
    (∀ priv0 ioPriv new, k < 32 → (maskedFlags (popMask priv0 ioPriv) fl new).getLsbD k =
      if k = 1 then true
      else if k ∈ [0, 2, 4, 6, 7, 8, 10, 11, 14] then new.getLsbD k
      else if k = 9 then (if ioPriv then new.getLsbD k else fl.getLsbD k)
      else if k = 12 ∨ k = 13 then (if priv0 then new.getLsbD k else fl.getLsbD k)
      else fl.getLsbD k)

/-- After CMP or SUB the conditions compare the operands: unsigned through CF and ZF, signed through SF, OF and ZF. -/
def Obligations.ComparisonConditions : Prop :=
  ∀ (w : Size) (a b : BitVec w.bits) (fl f : Word), f = subFlags a b false fl →
    (condHolds .b f = true ↔ a.toNat < b.toNat) ∧ (condHolds .nb f = true ↔ b.toNat ≤ a.toNat) ∧
    (condHolds .be f = true ↔ a.toNat ≤ b.toNat) ∧ (condHolds .nbe f = true ↔ b.toNat < a.toNat) ∧
    (condHolds .z f = true ↔ a = b) ∧ (condHolds .nz f = true ↔ a ≠ b) ∧
    (condHolds .l f = true ↔ a.toInt < b.toInt) ∧ (condHolds .nl f = true ↔ b.toInt ≤ a.toInt) ∧
    (condHolds .le f = true ↔ a.toInt ≤ b.toInt) ∧ (condHolds .nle f = true ↔ b.toInt < a.toInt) ∧
    (condHolds .o f = true ↔ ¬(-(2 ^ (w.bits - 1)) ≤ a.toInt - b.toInt ∧ a.toInt - b.toInt < 2 ^ (w.bits - 1)))

/-- The result and the carry of each shift and rotate by an effective count, and its other flags: OF is defined for a count
of 1 only, rotates keep SF, ZF, AF and PF. An undefined flag is its own bit of the free value u (log 4). SHLD and
SHRD shift bits of the register operand in, for an effective count up to the width. -/
def Obligations.ShiftResults : Prop :=
  ∀ (w : Size) (a : BitVec w.bits) (c : Nat) (cf : Bool) (u fl : Word), 0 < c → c < 32 → cf = fl.getLsbD 0 →
    (∀ k < w.bits,
      (shiftResult .rol a c cf).getLsbD ((k + c) % w.bits) = a.getLsbD k ∧
      (shiftResult .ror a c cf).getLsbD k = a.getLsbD ((k + c) % w.bits) ∧
      (shiftResult .shl a c cf).getLsbD k = (decide (c ≤ k) && a.getLsbD (k - c)) ∧
      (shiftResult .shr a c cf).getLsbD k = a.getLsbD (k + c) ∧
      (shiftResult .sar a c cf).getLsbD k = a.getLsbD (min (k + c) (w.bits - 1))) ∧
    (∀ k ≤ w.bits, ∀ x : Nat → Bool, x = (fun i => if i = w.bits then cf else a.getLsbD i) →
      (if (k + c) % (w.bits + 1) = w.bits then shiftCarry .rcl u a c cf
        else (shiftResult .rcl a c cf).getLsbD ((k + c) % (w.bits + 1))) = x k ∧
      (if k = w.bits then shiftCarry .rcr u a c cf else (shiftResult .rcr a c cf).getLsbD k) =
        x ((k + c) % (w.bits + 1))) ∧
    shiftCarry .rol u a c cf = (shiftResult .rol a c cf).getLsbD 0 ∧
    shiftCarry .ror u a c cf = (shiftResult .ror a c cf).getLsbD (w.bits - 1) ∧
    shiftCarry .shl u a c cf = (if c < w.bits then a.getLsbD (w.bits - c) else u.getLsbD 0) ∧
    shiftCarry .shr u a c cf = (if c < w.bits then a.getLsbD (c - 1) else u.getLsbD 0) ∧
    shiftCarry .sar u a c cf = a.getLsbD (min c w.bits - 1) ∧
    (∀ op k r of, r = shiftResult op a c cf →
      of = (if c ≠ 1 then u.getLsbD 11 else
        match op with
        | .rol => r.getLsbD (w.bits - 1) != r.getLsbD 0
        | .ror => r.getLsbD (w.bits - 1) != r.getLsbD (w.bits - 2)
        | .rcl => r.getLsbD (w.bits - 1) != shiftCarry .rcl u a c cf
        | .rcr => r.getLsbD (w.bits - 1) != r.getLsbD (w.bits - 2)
        | .shl => r.getLsbD (w.bits - 1) != shiftCarry .shl u a c cf
        | .shr => a.getLsbD (w.bits - 1)
        | .sar => false) →
      (shiftFlags op u a c fl).getLsbD k =
        if k = 0 then shiftCarry op u a c cf else if k = 11 then of
        else if op = .rol ∨ op = .ror ∨ op = .rcl ∨ op = .rcr then fl.getLsbD k
        else if k = 2 then decide ((List.range 8).countP (fun i => r.getLsbD i) % 2 = 0)
        else if k = 4 then u.getLsbD 4 else if k = 6 then decide (r = 0) else if k = 7 then r.getLsbD (w.bits - 1)
        else fl.getLsbD k) ∧
    (∀ b : BitVec w.bits, w ≠ .b8 → c ≤ w.bits →
      (∀ k < w.bits,
        (doubleShiftResult true a b c).getLsbD k = (if c ≤ k then a.getLsbD (k - c) else b.getLsbD (w.bits + k - c)) ∧
        (doubleShiftResult false a b c).getLsbD k =
          (if k + c < w.bits then a.getLsbD (k + c) else b.getLsbD (k + c - w.bits))) ∧
      (∀ left k r, r = doubleShiftResult left a b c → (doubleShiftFlags left u a b c fl).getLsbD k =
        if k = 0 then (if left then a.getLsbD (w.bits - c) else a.getLsbD (c - 1))
        else if k = 11 then (if c = 1 then r.getLsbD (w.bits - 1) != a.getLsbD (w.bits - 1) else u.getLsbD 11)
        else if k = 2 then decide ((List.range 8).countP (fun i => r.getLsbD i) % 2 = 0)
        else if k = 4 then u.getLsbD 4 else if k = 6 then decide (r = 0) else if k = 7 then r.getLsbD (w.bits - 1)
        else fl.getLsbD k))

/-! ### What instructions leave alone -/

/-- ADD, ADC, SUB, SBB, AND, OR, XOR change their destination and the six status flags; CMP and TEST the flags only. -/
def Obligations.ArithmeticFrames : Prop :=
  NineForms.add.FramesWrites ∧ NineForms.adc.FramesWrites ∧ NineForms.sub.FramesWrites ∧ NineForms.sbb.FramesWrites ∧
    NineForms.and.FramesWrites ∧ NineForms.or.FramesWrites ∧ NineForms.xor.FramesWrites ∧ NineForms.cmp.FramesCompares ∧
    (∀ rm r ib iz, FlagsOnly (.testRm8R8 rm r) statusMask ∧ FlagsOnly (.testRmvRv rm r) statusMask ∧
      FlagsOnly (.testAlIb ib) statusMask ∧ FlagsOnly (.testEaxIz iz) statusMask ∧
      FlagsOnly (.testRm8Ib rm ib) statusMask ∧ FlagsOnly (.testRmvIz rm iz) statusMask)

/-- INC and DEC (CF kept), NEG, NOT (no flag), MUL, IMUL, DIV and IDIV (the accumulator pair or the destination register),
the shifts and rotates (rotates keep SF ZF AF PF), SHLD, SHRD and SETcc. -/
def Obligations.OneOperandFrames : Prop :=
  ∀ s rm r ib iz cc ig w, w = s.ctx.osz →
    Framed (.incRv r) s (s.locFrame w (.reg r) 0x8D4) ∧ Framed (.decRv r) s (s.locFrame w (.reg r) 0x8D4) ∧
    Framed (.incRm8 rm) s (s.locFrame .b8 (locate s rm) 0x8D4) ∧ Framed (.decRm8 rm) s (s.locFrame .b8 (locate s rm) 0x8D4) ∧
    Framed (.incRmv rm) s (s.locFrame w (locate s rm) 0x8D4) ∧ Framed (.decRmv rm) s (s.locFrame w (locate s rm) 0x8D4) ∧
    Framed (.negRm8 rm) s (s.locFrame .b8 (locate s rm) statusMask) ∧
    Framed (.negRmv rm) s (s.locFrame w (locate s rm) statusMask) ∧
    Framed (.notRm8 rm) s (s.locFrame .b8 (locate s rm) 0) ∧ Framed (.notRmv rm) s (s.locFrame w (locate s rm) 0) ∧
    (∀ i ∈ [Instr.mulRm8 rm, .imulRm8 rm, .divRm8 rm, .idivRm8 rm], Framed i s ⟨[.eax], [], statusMask, []⟩) ∧
    (∀ i ∈ [Instr.mulRmv rm, .imulRmv rm, .divRmv rm, .idivRmv rm], Framed i s ⟨[.eax, .edx], [], statusMask, []⟩) ∧
    (∀ i ∈ [Instr.imulRvRmv r rm, .imulRvRmvIz r rm iz, .imulRvRmvIbs r rm ib], Framed i s ⟨[r], [], statusMask, []⟩) ∧
    (∀ f ∈ [ShiftForms.rol, .ror, .rcl, .rcr], f.Frames 0x801) ∧
    (∀ f ∈ [ShiftForms.shl, .shr, .sar], f.Frames statusMask) ∧
    (∀ i ∈ [Instr.shldRmvRvIb rm r ib, .shldRmvRvCl rm r, .shrdRmvRvIb rm r ib, .shrdRmvRvCl rm r],
      Framed i s (s.locFrame w (locate s rm) statusMask)) ∧
    Framed (.setccRm8 cc ig rm) s (s.locFrame .b8 (locate s rm) 0)

/-- MOV, XCHG, LEA, MOVZX, MOVSX and the loads of segment registers change no flag, only their destinations; the
accumulator and flag instructions their register or flags. SAHF sets bit 1 of EFLAGS and clears bits 3 and 5, which are
fixed bits (10_state R39): only the low byte changes, and only the five flags where the fixed bits have their values, as
they have in every state that meets the invariant. The destination of MOVZX and MOVSX of a 16-bit source is that of
45_data_movement R405 and R406 (log 29). -/
def Obligations.MoveFrames : Prop :=
  ∀ s rm r m ib iz off g a w, w = s.ctx.osz → (g, a) = memLoc s m →
    (∀ i ∈ [Instr.movRm8R8 rm r, .movRm8Ib rm ib], Framed i s (s.locFrame .b8 (locate s rm) 0)) ∧
    (∀ i ∈ [Instr.movRmvRv rm r, .movRmvIz rm iz], Framed i s (s.locFrame w (locate s rm) 0)) ∧
    (∀ i ∈ [Instr.movR8Rm8 r rm, .movR8Ib r ib], Framed i s (s.locFrame .b8 (.reg r) 0)) ∧
    (∀ i ∈ [Instr.movRvRmv r rm, .movRvIz r iz, .leaRvM r m, .movzxRvRm8 r rm, .movzxRvRm16 r rm, .movsxRvRm8 r rm,
        .movsxRvRm16 r rm], Framed i s (s.locFrame w (.reg r) 0)) ∧
    (∀ i ∈ [Instr.movAlMoffs8 off, .movEaxMoffsv off, .xlat, .lahf, .cbw], Framed i s ⟨[.eax], [], 0, []⟩) ∧
    Framed (.movMoffs8Al off) s ⟨[], [], 0, [s.segStore s.sourceSeg off 1]⟩ ∧
    Framed (.movMoffsvEax off) s ⟨[], [], 0, [s.segStore s.sourceSeg off w.bytes]⟩ ∧
    Framed (.xchgRm8R8 rm r) s ⟨(locate s rm).regs .b8 ++ Loc.regs .b8 (.reg r), [], 0, s.locStores .b8 (locate s rm)⟩ ∧
    Framed (.xchgRmvRv rm r) s ⟨(locate s rm).regs w ++ Loc.regs w (.reg r), [], 0, s.locStores w (locate s rm)⟩ ∧
    (∀ i q, (i, q) ∈ [(Instr.xchgEaxEcx, Reg.ecx), (.xchgEaxEdx, .edx), (.xchgEaxEbx, .ebx), (.xchgEaxEsp, .esp),
        (.xchgEaxEbp, .ebp), (.xchgEaxEsi, .esi), (.xchgEaxEdi, .edi)] → Framed i s ⟨[.eax, q], [], 0, []⟩) ∧
    Framed .cwd s ⟨[.edx], [], 0, []⟩ ∧ FlagsOnly .nop 0 ∧
    FlagsOnly .sahf 0xFF ∧ (s.flagsFixed = true → Framed .sahf s ⟨[], [], 0xD5, []⟩) ∧
    (∀ i ∈ [Instr.clc, .stc, .cmc], FlagsOnly i 0x1) ∧ (∀ i ∈ [Instr.cld, .std], FlagsOnly i 0x400) ∧
    (∀ q, Framed (.movSregRm16 q rm) s ⟨[], [q], 0,
      (s.loadStores (s.locValue .b16 (locate s rm)))⟩) ∧
    (∀ i q, (i, q) ∈ [(Instr.lesRvMem r m, SReg.es), (.ldsRvMem r m, .ds), (.lssRvMem r m, .ss), (.lfsRvMem r m, .fs),
        (.lgsRvMem r m, .gs)] →
      Framed i s ⟨[r], [q], 0, s.loadStores (farSelector w (s.loadFrom g a (w.bytes + 2)))⟩)

/-- The stack instructions change the stack pointer, the bytes they push, and the destination of a pop. -/
def Obligations.StackFrames : Prop :=
  ∀ s rm r iz ib n x, n = s.ctx.osz.bytes → x = s.popped n →
    (∀ i ∈ [Instr.pushRv r, .pushIz iz, .pushIbs ib, .pushRmv rm, .pushEs, .pushCs, .pushSs, .pushDs, .pushFs, .pushGs,
        .pushf], Framed i s ⟨[.esp], [], 0, [s.pushStore n]⟩) ∧
    Framed (.popRv r) s ⟨[.esp, r], [], 0, []⟩ ∧
    Framed (.popRmv rm) s ⟨.esp :: (locate x rm).regs s.ctx.osz, [], 0, x.locStores s.ctx.osz (locate x rm)⟩ ∧
    (∀ i q, (i, q) ∈ [(Instr.popEs, SReg.es), (.popSs, .ss), (.popDs, .ds), (.popFs, .fs), (.popGs, .gs)] →
      Framed i s ⟨[.esp], [q], 0, x.loadStores (BitVec.ofNat 16 (s.top n))⟩) ∧
    Framed .pusha s ⟨[.esp], [], 0, s.pushStores n (pushaValues s.ctx.osz s)⟩ ∧
    Framed .popa s ⟨[.eax, .ecx, .edx, .ebx, .esp, .ebp, .esi, .edi], [], 0, []⟩ ∧
    Framed .popf s ⟨[.esp], [], 0x7FD7, []⟩ ∧ Framed .leave s ⟨[.esp, .ebp], [], 0, []⟩

/-- String instructions change their index registers, the count, the accumulator (LODS) and the destination element; port
instructions call devices, which are added to the list of calls in the state (log 6). -/
def Obligations.StringFrames : Prop :=
  ∀ s ib,
    Framed .movsB s ⟨[.esi, .edi, .ecx], [], 0, [s.segStore .es (indexValue s .edi) 1]⟩ ∧
    Framed .movsV s ⟨[.esi, .edi, .ecx], [], 0, [s.segStore .es (indexValue s .edi) s.ctx.osz.bytes]⟩ ∧
    (∀ i ∈ [Instr.cmpsB, .cmpsV], Framed i s ⟨[.esi, .edi, .ecx], [], statusMask, []⟩) ∧
    Framed .stosB s ⟨[.edi, .ecx], [], 0, [s.segStore .es (indexValue s .edi) 1]⟩ ∧
    Framed .stosV s ⟨[.edi, .ecx], [], 0, [s.segStore .es (indexValue s .edi) s.ctx.osz.bytes]⟩ ∧
    (∀ i ∈ [Instr.lodsB, .lodsV], Framed i s ⟨[.eax, .esi, .ecx], [], 0, []⟩) ∧
    (∀ i ∈ [Instr.scasB, .scasV], Framed i s ⟨[.edi, .ecx], [], statusMask, []⟩) ∧
    FramedPort .insB s ⟨[.edi, .ecx], [], 0, [s.segStore .es (indexValue s .edi) 1]⟩ ∧
    FramedPort .insV s ⟨[.edi, .ecx], [], 0, [s.segStore .es (indexValue s .edi) s.ctx.osz.bytes]⟩ ∧
    (∀ i ∈ [Instr.outsB, .outsV], FramedPort i s ⟨[.esi, .ecx], [], 0, []⟩) ∧
    (∀ i ∈ [Instr.inAlIb ib, .inEaxIb ib, .inAlDx, .inEaxDx], FramedPort i s ⟨[.eax], [], 0, []⟩) ∧
    (∀ i ∈ [Instr.outIbAl ib, .outIbEax ib, .outDxAl, .outDxEax], FramedPort i s ⟨[], [], 0, []⟩)

/-- Each system instruction changes its own system register and nothing of the others; the moves of control and debug
registers also the six status flags. -/
def Obligations.SystemFrames : Prop :=
  ∀ s m rm md r k q g a, (g, a) = memLoc s m →
    FramedSystem (.lgdtM m) s ⟨[], [], 0, []⟩ (fun t => { t with gdtr := s.gdtr }) ∧
    FramedSystem (.lidtM m) s ⟨[], [], 0, []⟩ (fun t => { t with idtr := s.idtr }) ∧
    (∀ i ∈ [Instr.sgdtM m, .sidtM m], Framed i s ⟨[], [], 0, [s.segStore g a 6]⟩) ∧
    FramedSystem (.lldtRm16 rm) s ⟨[], [], 0, []⟩ (fun t => { t with ldtr := s.ldtr }) ∧
    FramedSystem (.ltrRm16 rm) s ⟨[], [], 0, s.markStores (s.locValue .b16 (locate s rm))⟩
      (fun t => { t with tr := s.tr }) ∧
    (∀ i ∈ [Instr.sldtRm16 rm, .strRm16 rm, .smswRm16 rm, .movRm16Sreg rm q],
      Framed i s ⟨(locate s rm).regs s.ctx.osz, [], 0, s.locStores .b16 (locate s rm)⟩) ∧
    (∀ i ∈ [Instr.lmswRm16 rm, .clts], FramedSystem i s ⟨[], [], 0, []⟩ (fun t => { t with cr0 := s.cr0 })) ∧
    FramedSystem (.movCrR32 md k r) s ⟨[], [], statusMask, []⟩ (fun t => t.setCreg k (s.creg k)) ∧
    Framed (.movR32Cr md r k) s ⟨[r], [], statusMask, []⟩ ∧
    (∀ d, FramedSystem (.movDrR32 md d r) s ⟨[], [], statusMask, []⟩ (fun t => { t with dr := t.dr.set d (s.dr.get d) }) ∧
      Framed (.movR32Dr md r d) s ⟨[r], [], statusMask, []⟩) ∧
    FramedSystem .hlt s ⟨[], [], 0, []⟩ (fun t => { t with activity := s.activity }) ∧
    (∀ i ∈ [Instr.cli, .sti], FlagsOnly i 0x200)

/-- Jumps change EIP only, LOOP also the count; calls and returns the stack pointer, the bytes they push and, when far, CS
and on a return to an outer level every segment register; IRET also the flags. A return in real mode or to the same level
changes no segment register but CS (stated where page walks write nothing, so that the selector is the one popped). A software interrupt changes the stack, CS, SS, TF,
IF, NT, and the two fields that say the core runs and no trap follows (the latter by log 13). -/
def Obligations.ControlFrames : Prop :=
  ∀ s cc rel rz rm iw m n sel off g a p, n = s.ctx.osz.bytes → (g, a) = memLoc s m →
    p = farSelector s.ctx.osz (s.loadFrom g a (n + 2)) →
    (∀ i ∈ [Instr.jmpRel8 rel, .jmpRelz rz, .jmpRmv rm, .jccRel8 cc rel, .jccRelz cc rz, .jcxzRel8 rel],
      Framed i s ⟨[], [], 0, []⟩) ∧
    (∀ i ∈ [Instr.loopRel8 rel, .loopeRel8 rel, .loopneRel8 rel], Framed i s ⟨[.ecx], [], 0, []⟩) ∧
    (∀ i ∈ [Instr.callRelz rz, .callRmv rm], Framed i s ⟨[.esp], [], 0, [s.pushStore n]⟩) ∧
    (∀ i ∈ [Instr.ret, .retIw iw], Framed i s ⟨[.esp], [], 0, []⟩) ∧
    Framed (.jmpFarPtr off sel) s ⟨[], [.cs], 0, s.loadStores sel⟩ ∧
    Framed (.jmpFarMem m) s ⟨[], [.cs], 0, s.loadStores p⟩ ∧
    (∀ i q, (i, q) ∈ [(Instr.callFarPtr off sel, sel), (.callFarMem m, p)] →
      Framed i s ⟨[.esp], [.cs], 0, s.pushStore n :: ((s.imaged n).pushed n (s.selValue n s.segs.cs.sel)).pushStore n ::
        (s.returnPushed n).loadStores q⟩) ∧
    (∀ i ∈ [Instr.retf, .retfIw iw], Framed i s ⟨[.esp], [.es, .cs, .ss, .ds, .fs, .gs], 0, []⟩) ∧
    Framed .iret s ⟨[.esp], [.es, .cs, .ss, .ds, .fs, .gs], 0x7FD7, []⟩ ∧
    (s.plainWalks = true → (s.pe = false ∨ rpl (BitVec.ofNat 16 ((s.popped n).top n)) ≤ s.cpl) →
      (∀ i ∈ [Instr.retf, .retfIw iw], Framed i s ⟨[.esp], [.cs], 0, []⟩) ∧
      Framed .iret s ⟨[.esp], [.cs], 0x7FD7, []⟩) ∧
    (∀ i vec, ((i = .intIb vec) ∨ (i = .int3 ∧ vec = 3) ∨ (i = .into ∧ vec = 4 ∧ s.flag .of = true)) →
      s.guestVector vec = true →
      FramedSystem i s ⟨[.esp], [.cs, .ss], 0x4300, s.deliveryStores vec .softInt none s.nextEip⟩
        (fun t => { t with activity := s.activity, tfAtStart := s.tfAtStart }))
end

