-- ==== Sys2Proof/Laws/Exec.lean ====
section
/-! SUPPORT. How computations on a working copy run, and relations that every run of one keeps (00_scope R16). -/

namespace Sys2Proof.Machine

variable {α β : Type}

theorem bind_run (x : Exec α) (f : α → Exec β) (s : State) :
    (x >>= f) s = match x s with
      | .ok (a, t) => f a t
      | .error e => .error e := by
  simp only [bind, StateT.bind, Except.bind]
  cases x s <;> rfl

theorem map_run (f : α → β) (x : Exec α) (s : State) :
    (f <$> x) s = match x s with
      | .ok (a, t) => .ok (f a, t)
      | .error e => .error e := by
  simp only [Functor.map, StateT.map, bind, Except.bind]
  cases x s <;> rfl

@[simp] theorem get_run (s : State) : (get : Exec State) s = .ok (s, s) := rfl
@[simp] theorem pure_run (a : α) (s : State) : (pure a : Exec α) s = .ok (a, s) := rfl
@[simp] theorem set_run (t s : State) : (set t : Exec PUnit) s = .ok (⟨⟩, t) := rfl
@[simp] theorem modify_run (f : State → State) (s : State) : (modify f : Exec PUnit) s = .ok (⟨⟩, f s) := rfl
@[simp] theorem throw_run (e : Stop) (s : State) : (throw e : Exec α) s = .error e := rfl
@[simp] theorem check_true (e : Stop) (s : State) : check true e s = .ok ((), s) := rfl
@[simp] theorem check_false (e : Stop) (s : State) : check false e s = .error e := rfl
@[simp] theorem setEip_run (v : Word) (s : State) : setEip v s = .ok ((), { s with eip := v }) := rfl
@[simp] theorem advance_run (s : State) : advance s = .ok ((), { s with eip := s.nextEip }) := rfl
@[simp] theorem modifyFlags_run (f : Word → Word) (s : State) :
    modifyFlags f s = .ok ((), { s with eflags := f s.eflags }) := rfl
@[simp] theorem draw_run (s : State) :
    draw s = .ok (Config.freeValue s.draws, { s with draws := s.draws + 1 }) := rfl

/-- A computation in sequence succeeds exactly when both parts do. -/
theorem bind_ok {x : Exec α} {f : α → Exec β} {s t : State} {b : β} :
    (x >>= f) s = .ok (b, t) ↔ ∃ a u, x s = .ok (a, u) ∧ f a u = .ok (b, t) := by
  rw [bind_run]
  constructor
  · intro h
    split at h
    · exact ⟨_, _, by assumption, h⟩
    · cases h
  · rintro ⟨a, u, hx, hf⟩
    rw [hx]
    exact hf

theorem check_ok {b : Bool} {e : Stop} {s t : State} {a : Unit} :
    check b e s = .ok (a, t) ↔ b = true ∧ t = s := by
  cases b
  · simp [check_false]
  · simp only [check_true, true_and]
    constructor
    · intro h; cases h; rfl
    · rintro rfl; rfl

/-- A relation between states that holds of no change and of changes in sequence. -/
structure Preserved (R : State → State → Prop) : Prop where
  refl : ∀ s, R s s
  trans : ∀ s t u, R s t → R t u → R s u

/-- Every successful run of a computation relates its start to its end. -/
def Keeps (R : State → State → Prop) (x : Exec α) : Prop :=
  ∀ s a t, x s = .ok (a, t) → R s t

variable {R : State → State → Prop}

theorem Keeps.pure (hR : Preserved R) (a : α) : Keeps R (Pure.pure a : Exec α) := by
  intro s b t h
  cases h
  exact hR.refl s

theorem Keeps.throw (e : Stop) : Keeps R (throw e : Exec α) := by
  intro s b t h
  cases h

theorem Keeps.get (hR : Preserved R) : Keeps R (MonadState.get : Exec State) := by
  intro s b t h
  cases h
  exact hR.refl s

theorem Keeps.check (hR : Preserved R) (b : Bool) (e : Stop) : Keeps R (check b e) := by
  intro s a t h
  obtain ⟨_, rfl⟩ := check_ok.1 h
  exact hR.refl _

theorem Keeps.bind (hR : Preserved R) {x : Exec α} {f : α → Exec β} (hx : Keeps R x) (hf : ∀ a, Keeps R (f a)) :
    Keeps R (x >>= f) := by
  intro s b t h
  obtain ⟨a, u, h1, h2⟩ := bind_ok.1 h
  exact hR.trans s u t (hx s a u h1) (hf a u b t h2)

/-- A computation that starts by reading the state may use what it read. -/
theorem Keeps.getBind {f : State → Exec β} (hf : ∀ s b t, f s s = .ok (b, t) → R s t) :
    Keeps R (MonadState.get >>= f) := by
  intro s b t h
  exact hf s b t h

theorem Keeps.modify {f : State → State} (hf : ∀ s, R s (f s)) : Keeps R (modify f : Exec PUnit) := by
  intro s a t h
  cases h
  exact hf s

theorem Keeps.ite {c : Prop} [Decidable c] {x y : Exec α} (hx : Keeps R x) (hy : Keeps R y) :
    Keeps R (if c then x else y) := by
  split
  · exact hx
  · exact hy

theorem Keeps.mono {R' : State → State → Prop} {x : Exec α} (h : Keeps R x) (hm : ∀ s t, R s t → R' s t) :
    Keeps R' x :=
  fun s a t hx => hm s t (h s a t hx)

end Sys2Proof.Machine
end

