-- ==== Sys2Proof/Laws/Memory.lean ====
section
/-! SUPPORT. Laws of memory: a read after a write, and the canonical form (20_memory R80 to R84). -/

namespace Sys2Proof.Machine

theorem Memory.wfFrom_mono {lo lo' : Nat} {m : List Host.Cell} (h : Memory.wfFrom lo m = true) (hl : lo' ≤ lo) :
    Memory.wfFrom lo' m = true := by
  cases m with
  | nil => rfl
  | cons c cs =>
    simp only [Memory.wfFrom, Bool.and_eq_true, decide_eq_true_eq] at h ⊢
    exact ⟨⟨by omega, h.1.2⟩, h.2⟩

theorem Memory.read_of_lt {lo a : Nat} {m : List Host.Cell} (h : Memory.wfFrom lo m = true) (ha : a < lo) :
    Memory.read m a = Memory.unlisted := by
  induction m generalizing lo with
  | nil => rfl
  | cons c cs ih =>
    simp only [Memory.wfFrom, Bool.and_eq_true, decide_eq_true_eq] at h
    rw [Memory.read, if_neg (by omega)]
    exact ih h.2 (by omega)

theorem Memory.wfFrom_write {lo a : Nat} {m : List Host.Cell} (v : Byte) (h : Memory.wfFrom lo m = true)
    (ha : lo ≤ a) : Memory.wfFrom lo (Memory.write m a v) = true := by
  induction m generalizing lo with
  | nil =>
    unfold Memory.write
    split <;> simp_all [Memory.wfFrom]
  | cons c cs ih =>
    simp only [Memory.wfFrom, Bool.and_eq_true, decide_eq_true_eq] at h
    unfold Memory.write
    split
    · split
      · simp only [Memory.wfFrom, Bool.and_eq_true, decide_eq_true_eq]
        exact h
      · simp only [Memory.wfFrom, Bool.and_eq_true, decide_eq_true_eq, bne_iff_ne, ne_eq]
        exact ⟨⟨ha, by assumption⟩, ⟨by omega, by simpa using h.1.2⟩, h.2⟩
    · split
      · subst_vars
        split
        · exact Memory.wfFrom_mono h.2 (by omega)
        · simp only [Memory.wfFrom, Bool.and_eq_true, decide_eq_true_eq, bne_iff_ne, ne_eq]
          exact ⟨⟨ha, by assumption⟩, h.2⟩
      · simp only [Memory.wfFrom, Bool.and_eq_true, decide_eq_true_eq]
        exact ⟨h.1, ih h.2 (by omega)⟩

/-- A write keeps the canonical form. -/
theorem Memory.wf_write {m : List Host.Cell} (a : Nat) (v : Byte) (h : Memory.wf m = true) :
    Memory.wf (Memory.write m a v) = true :=
  Memory.wfFrom_write v h (Nat.zero_le a)

theorem Memory.read_write_from {lo : Nat} {m : List Host.Cell} (a b : Nat) (v : Byte)
    (h : Memory.wfFrom lo m = true) :
    Memory.read (Memory.write m a v) b = if b = a then v else Memory.read m b := by
  induction m generalizing lo with
  | nil =>
    unfold Memory.write
    by_cases hb : b = a
    · subst hb; split <;> simp_all [Memory.read]
    · rw [if_neg hb]
      split
      · rfl
      · exact if_neg fun e => hb e.symm
  | cons c cs ih =>
    simp only [Memory.wfFrom, Bool.and_eq_true, decide_eq_true_eq] at h
    have hlow : ∀ x, x ≤ c.1 → Memory.read cs x = Memory.unlisted := fun x hx =>
      Memory.read_of_lt h.2 (by omega)
    unfold Memory.write
    split
    · split
      · by_cases hb : b = a
        · subst hb
          rw [if_pos rfl, Memory.read, if_neg (by omega), hlow b (by omega)]
          simp_all
        · rw [if_neg hb]
      · by_cases hb : b = a
        · subst hb; simp [Memory.read]
        · rw [if_neg hb, Memory.read, if_neg (fun e => hb e.symm)]
    · split
      · subst_vars
        split
        · by_cases hb : b = c.1
          · subst hb; rw [if_pos rfl, hlow c.1 (by omega)]; simp_all
          · rw [if_neg hb, Memory.read, if_neg (fun e => hb e.symm)]
        · by_cases hb : b = c.1
          · subst hb; simp [Memory.read]
          · rw [if_neg hb, Memory.read, if_neg (fun e => hb e.symm), Memory.read, if_neg (fun e => hb e.symm)]
      · rw [Memory.read, Memory.read, ih h.2]
        by_cases hb : b = a
        · subst hb
          rw [if_pos rfl, if_pos rfl, if_neg (by omega)]
        · rw [if_neg hb, if_neg hb]

/-- A read after a write (20_memory R81, R83). -/
theorem Memory.read_write {m : List Host.Cell} (a b : Nat) (v : Byte) (h : Memory.wf m = true) :
    Memory.read (Memory.write m a v) b = if b = a then v else Memory.read m b :=
  Memory.read_write_from a b v h

/-- A write leaves every other address, in any list of cells. -/
theorem Memory.read_write_ne (m : List Host.Cell) {a b : Nat} (v : Byte) (h : b ≠ a) :
    Memory.read (Memory.write m a v) b = Memory.read m b := by
  induction m with
  | nil =>
    unfold Memory.write
    split
    · rfl
    · exact if_neg fun e => h e.symm
  | cons c cs ih =>
    unfold Memory.write
    split
    · split
      · rfl
      · exact if_neg fun e => h e.symm
    · split
      · subst_vars
        split
        · rw [Memory.read, if_neg fun e => h e.symm]
        · rw [Memory.read, if_neg fun e => h e.symm, Memory.read, if_neg fun e => h e.symm]
      · rw [Memory.read, Memory.read, ih]

/-- A write keeps every listed address below a bound that the written address meets. -/
theorem Memory.all_lt_write {m : List Host.Cell} {n a : Nat} (v : Byte)
    (h : m.all (fun c => decide (c.1 < n)) = true) (ha : a < n) :
    (Memory.write m a v).all (fun c => decide (c.1 < n)) = true := by
  induction m with
  | nil => unfold Memory.write; split <;> simp_all
  | cons c cs ih =>
    have hc := h
    rw [List.all_cons, Bool.and_eq_true] at hc
    unfold Memory.write
    split
    · split
      · exact h
      · rw [List.all_cons, h, decide_eq_true ha]; rfl
    · split
      · split
        · exact hc.2
        · rw [List.all_cons, hc.2, decide_eq_true ha]; rfl
      · rw [List.all_cons, hc.1, ih hc.2]; rfl

/-- Equal reads are equal data in canonical form. -/
theorem Memory.ext_from {lo : Nat} {m k : List Host.Cell} (hm : Memory.wfFrom lo m = true)
    (hk : Memory.wfFrom lo k = true) (h : ∀ a, Memory.read m a = Memory.read k a) : m = k := by
  induction m generalizing lo k with
  | nil =>
    cases k with
    | nil => rfl
    | cons c cs =>
      have := h c.1
      simp_all [Memory.read, Memory.wfFrom]
  | cons c cs ih =>
    cases k with
    | nil =>
      have := h c.1
      simp_all [Memory.read, Memory.wfFrom]
    | cons d ds =>
      simp only [Memory.wfFrom, Bool.and_eq_true, decide_eq_true_eq, bne_iff_ne, ne_eq] at hm hk
      have hcd : c.1 = d.1 := by
        rcases Nat.lt_trichotomy c.1 d.1 with hlt | heq | hgt
        · have h1 := h c.1
          rw [Memory.read, if_pos rfl, Memory.read, if_neg (by omega), Memory.read_of_lt hk.2 (by omega)] at h1
          exact absurd h1 hm.1.2
        · exact heq
        · have h1 := h d.1
          rw [Memory.read, if_neg (by omega), Memory.read_of_lt hm.2 (by omega), Memory.read, if_pos rfl] at h1
          exact absurd h1.symm hk.1.2
      have hv : c.2 = d.2 := by
        have h1 := h c.1
        rwa [Memory.read, if_pos rfl, Memory.read, if_pos hcd.symm] at h1
      have hc : c = d := Prod.ext hcd hv
      subst hc
      congr 1
      refine ih hm.2 hk.2 fun a => ?_
      by_cases ha : c.1 = a
      · rw [Memory.read_of_lt hm.2 (by omega), Memory.read_of_lt hk.2 (by omega)]
      · have h1 := h a
        rwa [Memory.read, if_neg ha, Memory.read, if_neg ha] at h1

/-- The canonical form: memories that read alike are equal. -/
theorem Memory.ext {m k : List Host.Cell} (hm : Memory.wf m = true) (hk : Memory.wf k = true)
    (h : ∀ a, Memory.read m a = Memory.read k a) : m = k :=
  Memory.ext_from hm hk h

@[simp] theorem leBytes_length (n v : Nat) : (leBytes n v).length = n := by
  induction n generalizing v with
  | zero => rfl
  | succ n ih => simp [leBytes, ih]

/-- Little-endian bytes read back as the number, modulo their range (20_memory R84). -/
theorem leNat_leBytes (n v : Nat) : leNat (leBytes n v) = v % 256 ^ n := by
  induction n generalizing v with
  | zero => simp [leBytes, leNat, Nat.mod_one]
  | succ n ih =>
    have h8 : (BitVec.ofNat 8 v).toNat = v % 256 := rfl
    rw [leBytes, leNat, ih, h8, Nat.pow_succ', Nat.mod_mul]

theorem leNat_lt (bs : List Byte) : leNat bs < 256 ^ bs.length := by
  induction bs with
  | nil => simp [leNat]
  | cons b bs ih =>
    have := b.isLt
    simp only [leNat, List.length_cons, Nat.pow_succ]
    omega

end Sys2Proof.Machine
end

