-- ==== Sys2Proof/Laws/State.lean ====
section
/-! SUPPORT. The fields of a state after each named update, and the registers after a write. -/

namespace Sys2Proof.Machine

@[simp] theorem State.setReg_eip (s : State) (r : Reg) (v : Word) : (s.setReg r v).eip = s.eip := rfl
@[simp] theorem State.setReg_eflags (s : State) (r : Reg) (v : Word) : (s.setReg r v).eflags = s.eflags := rfl
@[simp] theorem State.setReg_segs (s : State) (r : Reg) (v : Word) : (s.setReg r v).segs = s.segs := rfl
@[simp] theorem State.setReg_gdtr (s : State) (r : Reg) (v : Word) : (s.setReg r v).gdtr = s.gdtr := rfl
@[simp] theorem State.setReg_idtr (s : State) (r : Reg) (v : Word) : (s.setReg r v).idtr = s.idtr := rfl
@[simp] theorem State.setReg_ldtr (s : State) (r : Reg) (v : Word) : (s.setReg r v).ldtr = s.ldtr := rfl
@[simp] theorem State.setReg_tr (s : State) (r : Reg) (v : Word) : (s.setReg r v).tr = s.tr := rfl
@[simp] theorem State.setReg_cr0 (s : State) (r : Reg) (v : Word) : (s.setReg r v).cr0 = s.cr0 := rfl
@[simp] theorem State.setReg_cr2 (s : State) (r : Reg) (v : Word) : (s.setReg r v).cr2 = s.cr2 := rfl
@[simp] theorem State.setReg_cr3 (s : State) (r : Reg) (v : Word) : (s.setReg r v).cr3 = s.cr3 := rfl
@[simp] theorem State.setReg_dr (s : State) (r : Reg) (v : Word) : (s.setReg r v).dr = s.dr := rfl
@[simp] theorem State.setReg_activity (s : State) (r : Reg) (v : Word) : (s.setReg r v).activity = s.activity := rfl
@[simp] theorem State.setReg_pendingIrq (s : State) (r : Reg) (v : Word) : (s.setReg r v).pendingIrq = s.pendingIrq := rfl
@[simp] theorem State.setReg_tfAtStart (s : State) (r : Reg) (v : Word) : (s.setReg r v).tfAtStart = s.tfAtStart := rfl
@[simp] theorem State.setReg_depth (s : State) (r : Reg) (v : Word) : (s.setReg r v).depth = s.depth := rfl
@[simp] theorem State.setReg_fatal (s : State) (r : Reg) (v : Word) : (s.setReg r v).fatal = s.fatal := rfl
@[simp] theorem State.setReg_ctx (s : State) (r : Reg) (v : Word) : (s.setReg r v).ctx = s.ctx := rfl
@[simp] theorem State.setReg_mem (s : State) (r : Reg) (v : Word) : (s.setReg r v).mem = s.mem := rfl
@[simp] theorem State.setReg_draws (s : State) (r : Reg) (v : Word) : (s.setReg r v).draws = s.draws := rfl
@[simp] theorem State.setReg_params (s : State) (r : Reg) (v : Word) : (s.setReg r v).params = s.params := rfl
@[simp] theorem State.setReg_events (s : State) (r : Reg) (v : Word) : (s.setReg r v).events = s.events := rfl

@[simp] theorem State.setReg_regs (s : State) (r : Reg) (v : Word) : (s.setReg r v).regs = s.regs.set r v := rfl

@[simp] theorem State.setView_eip (s : State) (w : Size) (r : Reg) (v : BitVec w.bits) : (s.setView w r v).eip = s.eip := by cases w <;> rfl
@[simp] theorem State.setView_eflags (s : State) (w : Size) (r : Reg) (v : BitVec w.bits) : (s.setView w r v).eflags = s.eflags := by cases w <;> rfl
@[simp] theorem State.setView_segs (s : State) (w : Size) (r : Reg) (v : BitVec w.bits) : (s.setView w r v).segs = s.segs := by cases w <;> rfl
@[simp] theorem State.setView_gdtr (s : State) (w : Size) (r : Reg) (v : BitVec w.bits) : (s.setView w r v).gdtr = s.gdtr := by cases w <;> rfl
@[simp] theorem State.setView_idtr (s : State) (w : Size) (r : Reg) (v : BitVec w.bits) : (s.setView w r v).idtr = s.idtr := by cases w <;> rfl
@[simp] theorem State.setView_ldtr (s : State) (w : Size) (r : Reg) (v : BitVec w.bits) : (s.setView w r v).ldtr = s.ldtr := by cases w <;> rfl
@[simp] theorem State.setView_tr (s : State) (w : Size) (r : Reg) (v : BitVec w.bits) : (s.setView w r v).tr = s.tr := by cases w <;> rfl
@[simp] theorem State.setView_cr0 (s : State) (w : Size) (r : Reg) (v : BitVec w.bits) : (s.setView w r v).cr0 = s.cr0 := by cases w <;> rfl
@[simp] theorem State.setView_cr2 (s : State) (w : Size) (r : Reg) (v : BitVec w.bits) : (s.setView w r v).cr2 = s.cr2 := by cases w <;> rfl
@[simp] theorem State.setView_cr3 (s : State) (w : Size) (r : Reg) (v : BitVec w.bits) : (s.setView w r v).cr3 = s.cr3 := by cases w <;> rfl
@[simp] theorem State.setView_dr (s : State) (w : Size) (r : Reg) (v : BitVec w.bits) : (s.setView w r v).dr = s.dr := by cases w <;> rfl
@[simp] theorem State.setView_activity (s : State) (w : Size) (r : Reg) (v : BitVec w.bits) : (s.setView w r v).activity = s.activity := by cases w <;> rfl
@[simp] theorem State.setView_pendingIrq (s : State) (w : Size) (r : Reg) (v : BitVec w.bits) : (s.setView w r v).pendingIrq = s.pendingIrq := by cases w <;> rfl
@[simp] theorem State.setView_tfAtStart (s : State) (w : Size) (r : Reg) (v : BitVec w.bits) : (s.setView w r v).tfAtStart = s.tfAtStart := by cases w <;> rfl
@[simp] theorem State.setView_depth (s : State) (w : Size) (r : Reg) (v : BitVec w.bits) : (s.setView w r v).depth = s.depth := by cases w <;> rfl
@[simp] theorem State.setView_fatal (s : State) (w : Size) (r : Reg) (v : BitVec w.bits) : (s.setView w r v).fatal = s.fatal := by cases w <;> rfl
@[simp] theorem State.setView_ctx (s : State) (w : Size) (r : Reg) (v : BitVec w.bits) : (s.setView w r v).ctx = s.ctx := by cases w <;> rfl
@[simp] theorem State.setView_mem (s : State) (w : Size) (r : Reg) (v : BitVec w.bits) : (s.setView w r v).mem = s.mem := by cases w <;> rfl
@[simp] theorem State.setView_draws (s : State) (w : Size) (r : Reg) (v : BitVec w.bits) : (s.setView w r v).draws = s.draws := by cases w <;> rfl
@[simp] theorem State.setView_params (s : State) (w : Size) (r : Reg) (v : BitVec w.bits) : (s.setView w r v).params = s.params := by cases w <;> rfl
@[simp] theorem State.setView_events (s : State) (w : Size) (r : Reg) (v : BitVec w.bits) : (s.setView w r v).events = s.events := by cases w <;> rfl

@[simp] theorem State.setSeg_regs (s : State) (r : SReg) (v : Segment) : (s.setSeg r v).regs = s.regs := rfl
@[simp] theorem State.setSeg_eip (s : State) (r : SReg) (v : Segment) : (s.setSeg r v).eip = s.eip := rfl
@[simp] theorem State.setSeg_eflags (s : State) (r : SReg) (v : Segment) : (s.setSeg r v).eflags = s.eflags := rfl
@[simp] theorem State.setSeg_gdtr (s : State) (r : SReg) (v : Segment) : (s.setSeg r v).gdtr = s.gdtr := rfl
@[simp] theorem State.setSeg_idtr (s : State) (r : SReg) (v : Segment) : (s.setSeg r v).idtr = s.idtr := rfl
@[simp] theorem State.setSeg_ldtr (s : State) (r : SReg) (v : Segment) : (s.setSeg r v).ldtr = s.ldtr := rfl
@[simp] theorem State.setSeg_tr (s : State) (r : SReg) (v : Segment) : (s.setSeg r v).tr = s.tr := rfl
@[simp] theorem State.setSeg_cr0 (s : State) (r : SReg) (v : Segment) : (s.setSeg r v).cr0 = s.cr0 := rfl
@[simp] theorem State.setSeg_cr2 (s : State) (r : SReg) (v : Segment) : (s.setSeg r v).cr2 = s.cr2 := rfl
@[simp] theorem State.setSeg_cr3 (s : State) (r : SReg) (v : Segment) : (s.setSeg r v).cr3 = s.cr3 := rfl
@[simp] theorem State.setSeg_dr (s : State) (r : SReg) (v : Segment) : (s.setSeg r v).dr = s.dr := rfl
@[simp] theorem State.setSeg_activity (s : State) (r : SReg) (v : Segment) : (s.setSeg r v).activity = s.activity := rfl
@[simp] theorem State.setSeg_pendingIrq (s : State) (r : SReg) (v : Segment) : (s.setSeg r v).pendingIrq = s.pendingIrq := rfl
@[simp] theorem State.setSeg_tfAtStart (s : State) (r : SReg) (v : Segment) : (s.setSeg r v).tfAtStart = s.tfAtStart := rfl
@[simp] theorem State.setSeg_depth (s : State) (r : SReg) (v : Segment) : (s.setSeg r v).depth = s.depth := rfl
@[simp] theorem State.setSeg_fatal (s : State) (r : SReg) (v : Segment) : (s.setSeg r v).fatal = s.fatal := rfl
@[simp] theorem State.setSeg_ctx (s : State) (r : SReg) (v : Segment) : (s.setSeg r v).ctx = s.ctx := rfl
@[simp] theorem State.setSeg_mem (s : State) (r : SReg) (v : Segment) : (s.setSeg r v).mem = s.mem := rfl
@[simp] theorem State.setSeg_draws (s : State) (r : SReg) (v : Segment) : (s.setSeg r v).draws = s.draws := rfl
@[simp] theorem State.setSeg_params (s : State) (r : SReg) (v : Segment) : (s.setSeg r v).params = s.params := rfl
@[simp] theorem State.setSeg_events (s : State) (r : SReg) (v : Segment) : (s.setSeg r v).events = s.events := rfl

@[simp] theorem State.setSeg_segs (s : State) (r : SReg) (v : Segment) : (s.setSeg r v).segs = s.segs.set r v := rfl

@[simp] theorem State.setCreg_regs (s : State) (k : CReg) (v : Word) : (s.setCreg k v).regs = s.regs := by cases k <;> rfl
@[simp] theorem State.setCreg_eip (s : State) (k : CReg) (v : Word) : (s.setCreg k v).eip = s.eip := by cases k <;> rfl
@[simp] theorem State.setCreg_eflags (s : State) (k : CReg) (v : Word) : (s.setCreg k v).eflags = s.eflags := by cases k <;> rfl
@[simp] theorem State.setCreg_segs (s : State) (k : CReg) (v : Word) : (s.setCreg k v).segs = s.segs := by cases k <;> rfl
@[simp] theorem State.setCreg_gdtr (s : State) (k : CReg) (v : Word) : (s.setCreg k v).gdtr = s.gdtr := by cases k <;> rfl
@[simp] theorem State.setCreg_idtr (s : State) (k : CReg) (v : Word) : (s.setCreg k v).idtr = s.idtr := by cases k <;> rfl
@[simp] theorem State.setCreg_ldtr (s : State) (k : CReg) (v : Word) : (s.setCreg k v).ldtr = s.ldtr := by cases k <;> rfl
@[simp] theorem State.setCreg_tr (s : State) (k : CReg) (v : Word) : (s.setCreg k v).tr = s.tr := by cases k <;> rfl
@[simp] theorem State.setCreg_dr (s : State) (k : CReg) (v : Word) : (s.setCreg k v).dr = s.dr := by cases k <;> rfl
@[simp] theorem State.setCreg_activity (s : State) (k : CReg) (v : Word) : (s.setCreg k v).activity = s.activity := by cases k <;> rfl
@[simp] theorem State.setCreg_pendingIrq (s : State) (k : CReg) (v : Word) : (s.setCreg k v).pendingIrq = s.pendingIrq := by cases k <;> rfl
@[simp] theorem State.setCreg_tfAtStart (s : State) (k : CReg) (v : Word) : (s.setCreg k v).tfAtStart = s.tfAtStart := by cases k <;> rfl
@[simp] theorem State.setCreg_depth (s : State) (k : CReg) (v : Word) : (s.setCreg k v).depth = s.depth := by cases k <;> rfl
@[simp] theorem State.setCreg_fatal (s : State) (k : CReg) (v : Word) : (s.setCreg k v).fatal = s.fatal := by cases k <;> rfl
@[simp] theorem State.setCreg_ctx (s : State) (k : CReg) (v : Word) : (s.setCreg k v).ctx = s.ctx := by cases k <;> rfl
@[simp] theorem State.setCreg_mem (s : State) (k : CReg) (v : Word) : (s.setCreg k v).mem = s.mem := by cases k <;> rfl
@[simp] theorem State.setCreg_draws (s : State) (k : CReg) (v : Word) : (s.setCreg k v).draws = s.draws := by cases k <;> rfl
@[simp] theorem State.setCreg_params (s : State) (k : CReg) (v : Word) : (s.setCreg k v).params = s.params := by cases k <;> rfl
@[simp] theorem State.setCreg_events (s : State) (k : CReg) (v : Word) : (s.setCreg k v).events = s.events := by cases k <;> rfl

@[simp] theorem State.setStackPointer_eip (s : State) (v : Word) : (s.setStackPointer v).eip = s.eip := by unfold State.setStackPointer; split <;> rfl
@[simp] theorem State.setStackPointer_eflags (s : State) (v : Word) : (s.setStackPointer v).eflags = s.eflags := by unfold State.setStackPointer; split <;> rfl
@[simp] theorem State.setStackPointer_segs (s : State) (v : Word) : (s.setStackPointer v).segs = s.segs := by unfold State.setStackPointer; split <;> rfl
@[simp] theorem State.setStackPointer_gdtr (s : State) (v : Word) : (s.setStackPointer v).gdtr = s.gdtr := by unfold State.setStackPointer; split <;> rfl
@[simp] theorem State.setStackPointer_idtr (s : State) (v : Word) : (s.setStackPointer v).idtr = s.idtr := by unfold State.setStackPointer; split <;> rfl
@[simp] theorem State.setStackPointer_ldtr (s : State) (v : Word) : (s.setStackPointer v).ldtr = s.ldtr := by unfold State.setStackPointer; split <;> rfl
@[simp] theorem State.setStackPointer_tr (s : State) (v : Word) : (s.setStackPointer v).tr = s.tr := by unfold State.setStackPointer; split <;> rfl
@[simp] theorem State.setStackPointer_cr0 (s : State) (v : Word) : (s.setStackPointer v).cr0 = s.cr0 := by unfold State.setStackPointer; split <;> rfl
@[simp] theorem State.setStackPointer_cr2 (s : State) (v : Word) : (s.setStackPointer v).cr2 = s.cr2 := by unfold State.setStackPointer; split <;> rfl
@[simp] theorem State.setStackPointer_cr3 (s : State) (v : Word) : (s.setStackPointer v).cr3 = s.cr3 := by unfold State.setStackPointer; split <;> rfl
@[simp] theorem State.setStackPointer_dr (s : State) (v : Word) : (s.setStackPointer v).dr = s.dr := by unfold State.setStackPointer; split <;> rfl
@[simp] theorem State.setStackPointer_activity (s : State) (v : Word) : (s.setStackPointer v).activity = s.activity := by unfold State.setStackPointer; split <;> rfl
@[simp] theorem State.setStackPointer_pendingIrq (s : State) (v : Word) : (s.setStackPointer v).pendingIrq = s.pendingIrq := by unfold State.setStackPointer; split <;> rfl
@[simp] theorem State.setStackPointer_tfAtStart (s : State) (v : Word) : (s.setStackPointer v).tfAtStart = s.tfAtStart := by unfold State.setStackPointer; split <;> rfl
@[simp] theorem State.setStackPointer_depth (s : State) (v : Word) : (s.setStackPointer v).depth = s.depth := by unfold State.setStackPointer; split <;> rfl
@[simp] theorem State.setStackPointer_fatal (s : State) (v : Word) : (s.setStackPointer v).fatal = s.fatal := by unfold State.setStackPointer; split <;> rfl
@[simp] theorem State.setStackPointer_ctx (s : State) (v : Word) : (s.setStackPointer v).ctx = s.ctx := by unfold State.setStackPointer; split <;> rfl
@[simp] theorem State.setStackPointer_mem (s : State) (v : Word) : (s.setStackPointer v).mem = s.mem := by unfold State.setStackPointer; split <;> rfl
@[simp] theorem State.setStackPointer_draws (s : State) (v : Word) : (s.setStackPointer v).draws = s.draws := by unfold State.setStackPointer; split <;> rfl
@[simp] theorem State.setStackPointer_params (s : State) (v : Word) : (s.setStackPointer v).params = s.params := by unfold State.setStackPointer; split <;> rfl
@[simp] theorem State.setStackPointer_events (s : State) (v : Word) : (s.setStackPointer v).events = s.events := by unfold State.setStackPointer; split <;> rfl

@[simp] theorem State.setIndex_eip (s : State) (r : Reg) (v : Word) : (s.setIndex r v).eip = s.eip := by simp [State.setIndex]
@[simp] theorem State.setIndex_eflags (s : State) (r : Reg) (v : Word) : (s.setIndex r v).eflags = s.eflags := by simp [State.setIndex]
@[simp] theorem State.setIndex_segs (s : State) (r : Reg) (v : Word) : (s.setIndex r v).segs = s.segs := by simp [State.setIndex]
@[simp] theorem State.setIndex_gdtr (s : State) (r : Reg) (v : Word) : (s.setIndex r v).gdtr = s.gdtr := by simp [State.setIndex]
@[simp] theorem State.setIndex_idtr (s : State) (r : Reg) (v : Word) : (s.setIndex r v).idtr = s.idtr := by simp [State.setIndex]
@[simp] theorem State.setIndex_ldtr (s : State) (r : Reg) (v : Word) : (s.setIndex r v).ldtr = s.ldtr := by simp [State.setIndex]
@[simp] theorem State.setIndex_tr (s : State) (r : Reg) (v : Word) : (s.setIndex r v).tr = s.tr := by simp [State.setIndex]
@[simp] theorem State.setIndex_cr0 (s : State) (r : Reg) (v : Word) : (s.setIndex r v).cr0 = s.cr0 := by simp [State.setIndex]
@[simp] theorem State.setIndex_cr2 (s : State) (r : Reg) (v : Word) : (s.setIndex r v).cr2 = s.cr2 := by simp [State.setIndex]
@[simp] theorem State.setIndex_cr3 (s : State) (r : Reg) (v : Word) : (s.setIndex r v).cr3 = s.cr3 := by simp [State.setIndex]
@[simp] theorem State.setIndex_dr (s : State) (r : Reg) (v : Word) : (s.setIndex r v).dr = s.dr := by simp [State.setIndex]
@[simp] theorem State.setIndex_activity (s : State) (r : Reg) (v : Word) : (s.setIndex r v).activity = s.activity := by simp [State.setIndex]
@[simp] theorem State.setIndex_pendingIrq (s : State) (r : Reg) (v : Word) : (s.setIndex r v).pendingIrq = s.pendingIrq := by simp [State.setIndex]
@[simp] theorem State.setIndex_tfAtStart (s : State) (r : Reg) (v : Word) : (s.setIndex r v).tfAtStart = s.tfAtStart := by simp [State.setIndex]
@[simp] theorem State.setIndex_depth (s : State) (r : Reg) (v : Word) : (s.setIndex r v).depth = s.depth := by simp [State.setIndex]
@[simp] theorem State.setIndex_fatal (s : State) (r : Reg) (v : Word) : (s.setIndex r v).fatal = s.fatal := by simp [State.setIndex]
@[simp] theorem State.setIndex_ctx (s : State) (r : Reg) (v : Word) : (s.setIndex r v).ctx = s.ctx := by simp [State.setIndex]
@[simp] theorem State.setIndex_mem (s : State) (r : Reg) (v : Word) : (s.setIndex r v).mem = s.mem := by simp [State.setIndex]
@[simp] theorem State.setIndex_draws (s : State) (r : Reg) (v : Word) : (s.setIndex r v).draws = s.draws := by simp [State.setIndex]
@[simp] theorem State.setIndex_params (s : State) (r : Reg) (v : Word) : (s.setIndex r v).params = s.params := by simp [State.setIndex]
@[simp] theorem State.setIndex_events (s : State) (r : Reg) (v : Word) : (s.setIndex r v).events = s.events := by simp [State.setIndex]

@[simp] theorem State.countDown_eip (s : State)  : (s.countDown).eip = s.eip := by simp [State.countDown]
@[simp] theorem State.countDown_eflags (s : State)  : (s.countDown).eflags = s.eflags := by simp [State.countDown]
@[simp] theorem State.countDown_segs (s : State)  : (s.countDown).segs = s.segs := by simp [State.countDown]
@[simp] theorem State.countDown_gdtr (s : State)  : (s.countDown).gdtr = s.gdtr := by simp [State.countDown]
@[simp] theorem State.countDown_idtr (s : State)  : (s.countDown).idtr = s.idtr := by simp [State.countDown]
@[simp] theorem State.countDown_ldtr (s : State)  : (s.countDown).ldtr = s.ldtr := by simp [State.countDown]
@[simp] theorem State.countDown_tr (s : State)  : (s.countDown).tr = s.tr := by simp [State.countDown]
@[simp] theorem State.countDown_cr0 (s : State)  : (s.countDown).cr0 = s.cr0 := by simp [State.countDown]
@[simp] theorem State.countDown_cr2 (s : State)  : (s.countDown).cr2 = s.cr2 := by simp [State.countDown]
@[simp] theorem State.countDown_cr3 (s : State)  : (s.countDown).cr3 = s.cr3 := by simp [State.countDown]
@[simp] theorem State.countDown_dr (s : State)  : (s.countDown).dr = s.dr := by simp [State.countDown]
@[simp] theorem State.countDown_activity (s : State)  : (s.countDown).activity = s.activity := by simp [State.countDown]
@[simp] theorem State.countDown_pendingIrq (s : State)  : (s.countDown).pendingIrq = s.pendingIrq := by simp [State.countDown]
@[simp] theorem State.countDown_tfAtStart (s : State)  : (s.countDown).tfAtStart = s.tfAtStart := by simp [State.countDown]
@[simp] theorem State.countDown_depth (s : State)  : (s.countDown).depth = s.depth := by simp [State.countDown]
@[simp] theorem State.countDown_fatal (s : State)  : (s.countDown).fatal = s.fatal := by simp [State.countDown]
@[simp] theorem State.countDown_ctx (s : State)  : (s.countDown).ctx = s.ctx := by simp [State.countDown]
@[simp] theorem State.countDown_mem (s : State)  : (s.countDown).mem = s.mem := by simp [State.countDown]
@[simp] theorem State.countDown_draws (s : State)  : (s.countDown).draws = s.draws := by simp [State.countDown]
@[simp] theorem State.countDown_params (s : State)  : (s.countDown).params = s.params := by simp [State.countDown]
@[simp] theorem State.countDown_events (s : State)  : (s.countDown).events = s.events := by simp [State.countDown]

@[simp] theorem State.withCr2_regs (s : State) (v : Option Word) : (s.withCr2 v).regs = s.regs := by cases v <;> rfl
@[simp] theorem State.withCr2_eip (s : State) (v : Option Word) : (s.withCr2 v).eip = s.eip := by cases v <;> rfl
@[simp] theorem State.withCr2_eflags (s : State) (v : Option Word) : (s.withCr2 v).eflags = s.eflags := by cases v <;> rfl
@[simp] theorem State.withCr2_segs (s : State) (v : Option Word) : (s.withCr2 v).segs = s.segs := by cases v <;> rfl
@[simp] theorem State.withCr2_gdtr (s : State) (v : Option Word) : (s.withCr2 v).gdtr = s.gdtr := by cases v <;> rfl
@[simp] theorem State.withCr2_idtr (s : State) (v : Option Word) : (s.withCr2 v).idtr = s.idtr := by cases v <;> rfl
@[simp] theorem State.withCr2_ldtr (s : State) (v : Option Word) : (s.withCr2 v).ldtr = s.ldtr := by cases v <;> rfl
@[simp] theorem State.withCr2_tr (s : State) (v : Option Word) : (s.withCr2 v).tr = s.tr := by cases v <;> rfl
@[simp] theorem State.withCr2_cr0 (s : State) (v : Option Word) : (s.withCr2 v).cr0 = s.cr0 := by cases v <;> rfl
@[simp] theorem State.withCr2_cr3 (s : State) (v : Option Word) : (s.withCr2 v).cr3 = s.cr3 := by cases v <;> rfl
@[simp] theorem State.withCr2_dr (s : State) (v : Option Word) : (s.withCr2 v).dr = s.dr := by cases v <;> rfl
@[simp] theorem State.withCr2_activity (s : State) (v : Option Word) : (s.withCr2 v).activity = s.activity := by cases v <;> rfl
@[simp] theorem State.withCr2_pendingIrq (s : State) (v : Option Word) : (s.withCr2 v).pendingIrq = s.pendingIrq := by cases v <;> rfl
@[simp] theorem State.withCr2_tfAtStart (s : State) (v : Option Word) : (s.withCr2 v).tfAtStart = s.tfAtStart := by cases v <;> rfl
@[simp] theorem State.withCr2_depth (s : State) (v : Option Word) : (s.withCr2 v).depth = s.depth := by cases v <;> rfl
@[simp] theorem State.withCr2_fatal (s : State) (v : Option Word) : (s.withCr2 v).fatal = s.fatal := by cases v <;> rfl
@[simp] theorem State.withCr2_ctx (s : State) (v : Option Word) : (s.withCr2 v).ctx = s.ctx := by cases v <;> rfl
@[simp] theorem State.withCr2_mem (s : State) (v : Option Word) : (s.withCr2 v).mem = s.mem := by cases v <;> rfl
@[simp] theorem State.withCr2_draws (s : State) (v : Option Word) : (s.withCr2 v).draws = s.draws := by cases v <;> rfl
@[simp] theorem State.withCr2_params (s : State) (v : Option Word) : (s.withCr2 v).params = s.params := by cases v <;> rfl
@[simp] theorem State.withCr2_events (s : State) (v : Option Word) : (s.withCr2 v).events = s.events := by cases v <;> rfl

@[simp] theorem Regs.get_set (g : Regs) (r q : Reg) (v : Word) :
    (g.set r v).get q = if q = r then v else g.get q := by
  cases r <;> cases q <;> rfl

@[simp] theorem Segments.get_set (g : Segments) (r q : SReg) (v : Segment) :
    (g.set r v).get q = if q = r then v else g.get q := by
  cases r <;> cases q <;> rfl

@[simp] theorem DebugRegs.get_set (g : DebugRegs) (r q : DReg) (v : Word) :
    (g.set r v).get q = if q = r then v else g.get q := by
  cases r <;> cases q <;> rfl

/-- A narrow write leaves the high half (10_state R32). -/
theorem putLow16_high (old : Word) (v : Half) : (putLow16 old v).extractLsb' 16 16 = old.extractLsb' 16 16 := by
  ext i hi
  simp only [putLow16, BitVec.getElem_extractLsb', BitVec.getLsbD_append]
  simp [hi]

/-- A narrow write is read back (10_state R32). -/
theorem putLow16_low (old : Word) (v : Half) : (putLow16 old v).extractLsb' 0 16 = v := by
  ext i hi
  simp only [putLow16, BitVec.getElem_extractLsb', BitVec.getLsbD_append]
  simp [hi]

/-- A byte write is read back (10_state R32). -/
theorem putByte_same (old : Word) (high : Bool) (v : Byte) :
    (putByte old high v).extractLsb' (if high then 8 else 0) 8 = v := by
  cases high <;> ext i hi <;>
    simp only [putByte, Bool.false_eq_true, if_true, if_false, BitVec.getElem_extractLsb', BitVec.getLsbD_append] <;>
    simp [hi]

/-- A register view reads what was written through it (10_state R32). -/
theorem State.view_setView (s : State) (w : Size) (r : Reg) (v : BitVec w.bits) : (s.setView w r v).view w r = v := by
  cases w with
  | b8 => simp [State.setView, State.view, State.reg, putByte_same]
  | b16 => simp [State.setView, State.view, State.reg, putLow16_low]
  | b32 => simp [State.setView, State.view, State.reg]

/-- A write through a view changes only the register that holds it (10_state R32). -/
theorem State.setView_get (s : State) (w : Size) (r q : Reg) (v : BitVec w.bits)
    (h : q ≠ (if w = .b8 then (byteHome r).1 else r)) : (s.setView w r v).regs.get q = s.regs.get q := by
  cases w <;> simp_all [State.setView, State.setReg]

end Sys2Proof.Machine
end

