-- ==== Sys2Proof/Laws/Run.lean ====
section
/-! SUPPORT. How the shared operations run when page walks write nothing: each one's whole effect, as one equation. -/

namespace Sys2Proof.Machine

theorem State.plainWalks_off {s : State} (h : s.plainWalks = true) : s.params.pagingSetsAD = false := by
  simpa [State.plainWalks] using h

theorem touchFetch_run {s : State} (h : s.plainWalks = true) : touchFetch s = .ok ((), s) := by
  simp [touchFetch, bind_run, State.plainWalks_off h]

theorem physReads_run {s : State} {as : List Word} (h : s.inRam as = true) :
    physReads as s = .ok (as.map fun a => Memory.read s.mem a.toNat, s) := by
  induction as with
  | nil => rfl
  | cons a as ih =>
    simp only [State.inRam, List.all_cons, Bool.and_eq_true] at h
    simp [physReads, physRead, bind_run, map_run, h.1, ih h.2]

theorem physWrites_run {s : State} {as : List Word} (bs : List Byte) (h : s.inRam as = true) :
    physWrites as bs s = .ok ((), { s with mem := storeBytes as bs s.mem }) := by
  induction as generalizing s bs with
  | nil => rfl
  | cons a as ih =>
    simp only [State.inRam, List.all_cons, Bool.and_eq_true] at h
    cases bs with
    | nil => rfl
    | cons b bs =>
      simp only [physWrites, physWrite, bind_run, get_run, h.1, check_true, set_run]
      exact ih (s := { s with mem := Memory.write s.mem a.toNat b }) bs h.2

theorem memRead_run {s : State} {a : Word} {n : Nat} (h : s.inRam (addrs a n) = true) :
    memRead a n s = .ok (s.numberOf (addrs a n), s) := by
  simp [memRead, map_run, physReads_run h, State.numberOf]

theorem State.entry_some {s : State} {a v : Word} (h : s.entry a = some v) :
    ∃ k, memRead a 4 s = .ok (k, s) ∧ v = BitVec.ofNat 32 k := by
  simp only [State.entry] at h
  split at h
  · next hr => cases h; exact ⟨_, memRead_run hr, rfl⟩
  · cases h

theorem translate_run {s : State} (h : s.plainWalks = true) {acc : Access} {user : Bool} {lin p : Word}
    (hp : s.phys acc user lin = some p) : translate acc user lin s = .ok (p, s) := by
  simp only [State.phys] at hp
  simp only [translate, bind_run, get_run]
  split at hp
  · next hg =>
    obtain ⟨pde, h1, hp⟩ := Option.bind_eq_some_iff.1 hp
    split at hp
    · next hpde =>
      obtain ⟨pte, h2, hp⟩ := Option.bind_eq_some_iff.1 hp
      split at hp
      · next hpte =>
        cases hp
        simp only [Bool.and_eq_true] at hpte
        obtain ⟨k1, e1, rfl⟩ := State.entry_some h1
        obtain ⟨k2, e2, rfl⟩ := State.entry_some h2
        simp only [hg, if_true, bind_run, e1, hpde, check_true, e2, hpte.1, hpte.2, markAccessed, get_run,
          State.plainWalks_off h, pure_run]
        rfl
      · cases hp
    · cases hp
  · next hg =>
    cases hp
    simp [hg]

theorem translates_run {s : State} (h : s.plainWalks = true) {acc : Access} {user : Bool} {as ps : List Word}
    (hp : s.physAll acc user as = some ps) : translates acc user as s = .ok (ps, s) := by
  induction as generalizing ps with
  | nil => cases hp; rfl
  | cons a as ih =>
    simp only [State.physAll] at hp
    obtain ⟨p, h1, hp⟩ := Option.bind_eq_some_iff.1 hp
    obtain ⟨qs, h2, rfl⟩ := Option.map_eq_some_iff.1 hp
    simp [translates, bind_run, map_run, translate_run h h1, ih h2]

theorem State.backed_some {s : State} {acc : Access} {user : Bool} {lin : Word} {n : Nat}
    (h : s.backed acc user lin n = true) :
    ∃ ps, s.physAll acc user (addrs lin n) = some ps ∧ s.inRam ps = true := by
  simp only [State.backed] at h
  split at h
  · next ps hps => exact ⟨ps, hps, h⟩
  · cases h

theorem checkSegment_read {s : State} {r : SReg} {off : Word} {n : Nat}
    (h : s.readable r off n = true) : checkSegment r off n .read s = .ok ((), s) := by
  simp only [State.readable, State.mayRead, Bool.and_eq_true, Bool.or_eq_true, Bool.not_eq_true'] at h
  simp only [checkSegment, bind_run, get_run, h.1.1, check_true, checkRights]
  rcases h.1.2 with hp | hp
  · simp [hp]
  · split
    · rcases hp.2 with hc | hc <;> simp [bind_run, hp.1, hc]
    · rfl

theorem checkSegment_write {s : State} {r : SReg} {off : Word} {n : Nat}
    (h : s.writable r off n = true) : checkSegment r off n .write s = .ok ((), s) := by
  simp only [State.writable, State.mayWrite, Bool.and_eq_true, Bool.or_eq_true, Bool.not_eq_true'] at h
  simp only [checkSegment, bind_run, get_run, h.1.1, check_true, checkRights]
  rcases h.1.2 with hp | hp
  · simp [hp]
  · split <;> simp [hp.1, hp.2]

theorem linRead_run {s : State} (h : s.plainWalks = true) {user : Bool} {lin : Word} {n : Nat}
    (hp : s.backed .read user lin n = true) : linRead .read user lin n s = .ok (s.valueAt user lin n, s) := by
  obtain ⟨ps, h1, h2⟩ := State.backed_some hp
  simp [linRead, bind_run, map_run, translates_run h h1, physReads_run h2, State.valueAt, h1, State.numberOf]

theorem linWrite_run {s : State} (h : s.plainWalks = true) {user : Bool} {lin : Word} {n : Nat} (v : Nat)
    (hp : s.backed .write user lin n = true) : linWrite user lin n v s = .ok ((), s.storeAt user lin n v) := by
  obtain ⟨ps, h1, h2⟩ := State.backed_some hp
  simp [linWrite, bind_run, translates_run h h1, physWrites_run _ h2, State.storeAt, h1]

theorem segRead_run {s : State} (h : s.plainWalks = true) {r : SReg} {off : Word} {n : Nat}
    (hr : s.readable r off n = true) : segRead r off n s = .ok (s.loadFrom r off n, s) := by
  have hp : s.backed .read s.user (s.linear r off) n = true := by
    simp only [State.readable, Bool.and_eq_true] at hr; exact hr.2
  simp only [segRead, bind_run, checkSegment_read hr, get_run]
  exact linRead_run h hp

theorem segWrite_run {s : State} (h : s.plainWalks = true) {r : SReg} {off : Word} {n : Nat} (v : Nat)
    (hw : s.writable r off n = true) : segWrite r off n v s = .ok ((), s.storeTo r off n v) := by
  have hp : s.backed .write s.user (s.linear r off) n = true := by
    simp only [State.writable, Bool.and_eq_true] at hw; exact hw.2
  simp only [segWrite, bind_run, checkSegment_write hw, get_run]
  exact linWrite_run h v hp

theorem readReg_run (w : Size) (r : Reg) (s : State) : readReg w r s = .ok (s.view w r, s) := rfl

theorem writeReg_run (w : Size) (r : Reg) (v : BitVec w.bits) (s : State) :
    writeReg w r v s = .ok ((), s.setView w r v) := rfl

theorem readLoc_run {s : State} (h : s.plainWalks = true) {w : Size} {l : Loc} (hr : s.locReadable w l = true) :
    readLoc w l s = .ok (s.locValue w l, s) := by
  cases l with
  | reg r => rfl
  | mem r off => simp [readLoc, bind_run, segRead_run h hr, State.locValue]

theorem writeLoc_run {s : State} (h : s.plainWalks = true) {w : Size} {l : Loc} (v : BitVec w.bits)
    (hw : s.locWritable w l = true) : writeLoc w l v s = .ok ((), s.locStore w l v) := by
  cases l with
  | reg r => rfl
  | mem r off => simp [writeLoc, segWrite_run h v.toNat hw, State.locStore]

theorem readRM_run {s : State} (h : s.plainWalks = true) {w : Size} {rm : RM}
    (hr : s.locReadable w (locate s rm) = true) :
    readRM w rm s = .ok (s.locValue w (locate s rm), s) := by
  simp [readRM, bind_run, readLoc_run h hr]

theorem writeRM_run {s : State} (h : s.plainWalks = true) {w : Size} {rm : RM} (v : BitVec w.bits)
    (hw : s.locWritable w (locate s rm) = true) :
    writeRM w rm v s = .ok ((), s.locStore w (locate s rm) v) := by
  simp [writeRM, bind_run, writeLoc_run h v hw]

/-- An instruction whose body succeeds commits its working copy. -/
theorem runInstr_ok {s t : State} {body : Exec Unit} (h : s.plainWalks = true)
    (hb : body s = .ok ((), t)) : runInstr body s = .next t := by
  simp [runInstr, bind_run, touchFetch_run h, hb, settle]

/-- An instruction whose body succeeds and that runs on to the next one. -/
theorem seqInstr_ok {s t : State} {body : Exec Unit} (h : s.plainWalks = true)
    (hb : body s = .ok ((), t)) : seqInstr body s = .next t.advanced := by
  refine runInstr_ok h ?_
  simp [bind_run, hb, State.advanced]

/-- An instruction whose body raises is discarded and its exception taken (60_exceptions R496). -/
theorem runInstr_raise {s : State} {body : Exec Unit} {r : Raised} (h : s.plainWalks = true)
    (hb : body s = .error (.raise r)) :
    runInstr body s = deliverEvent r.vec .fault r.err s.eip (s.withCr2 r.cr2) := by
  simp [runInstr, bind_run, touchFetch_run h, hb, settle]

theorem seqInstr_raise {s : State} {body : Exec Unit} {r : Raised} (h : s.plainWalks = true)
    (hb : body s = .error (.raise r)) :
    seqInstr body s = deliverEvent r.vec .fault r.err s.eip (s.withCr2 r.cr2) := by
  refine runInstr_raise h ?_
  simp [bind_run, hb]

end Sys2Proof.Machine
end

