-- ==== Sys2Proof/Laws/Agree.lean ====
section
/-! SUPPORT. What registers, flags and the count of draws do not matter for: states that agree on segments, control registers,
parameters and memory access memory alike. -/

namespace Sys2Proof.Machine

/-- Two states agree on everything that memory accesses and their checks read. -/
structure Agree (s t : State) : Prop where
  cr0 : t.cr0 = s.cr0
  cr3 : t.cr3 = s.cr3
  mem : t.mem = s.mem
  params : t.params = s.params
  segs : t.segs = s.segs

theorem phys_agree {s t : State} (cr0 : t.cr0 = s.cr0) (cr3 : t.cr3 = s.cr3) (mem : t.mem = s.mem)
  (params : t.params = s.params) (acc u a) : t.phys acc u a = s.phys acc u a := by
  simp [State.phys, State.paging, State.entry, State.inRam, State.numberOf, *]

theorem physAll_agree {s t : State} (cr0 : t.cr0 = s.cr0) (cr3 : t.cr3 = s.cr3) (mem : t.mem = s.mem)
  (params : t.params = s.params) (acc u as) : t.physAll acc u as = s.physAll acc u as := by
  induction as with
  | nil => rfl
  | cons a as ih => simp [State.physAll, ih, phys_agree cr0 cr3 mem params]

theorem backed_agree {s t : State} (cr0 : t.cr0 = s.cr0) (cr3 : t.cr3 = s.cr3) (mem : t.mem = s.mem)
  (params : t.params = s.params) (acc u lin n) : t.backed acc u lin n = s.backed acc u lin n := by
  simp [State.backed, physAll_agree cr0 cr3 mem params, State.inRam, params]

theorem valueAt_agree {s t : State} (cr0 : t.cr0 = s.cr0) (cr3 : t.cr3 = s.cr3) (mem : t.mem = s.mem)
  (params : t.params = s.params) (u lin n) : t.valueAt u lin n = s.valueAt u lin n := by
  simp [State.valueAt, physAll_agree cr0 cr3 mem params, State.numberOf, mem]

namespace Agree

variable {s t : State} (h : Agree s t)
include h

theorem user : t.user = s.user := by simp [State.user, State.cpl, h.segs]

theorem pe : t.pe = s.pe := by simp [State.pe, h.cr0]

theorem seg : t.seg = s.seg := by funext r; simp [State.seg, h.segs]

theorem linear (r off) : t.linear r off = s.linear r off := by simp [State.linear, h.seg]

theorem readable (r off n) : t.readable r off n = s.readable r off n := by
  simp [State.readable, State.mayRead, h.seg, h.pe, h.user, h.linear, backed_agree h.cr0 h.cr3 h.mem h.params]

theorem writable (r off n) : t.writable r off n = s.writable r off n := by
  simp [State.writable, State.mayWrite, h.seg, h.pe, h.user, h.linear, backed_agree h.cr0 h.cr3 h.mem h.params]

theorem loadFrom (r off n) : t.loadFrom r off n = s.loadFrom r off n := by
  simp [State.loadFrom, h.user, h.linear, valueAt_agree h.cr0 h.cr3 h.mem h.params]

theorem locWritable (w l) : t.locWritable w l = s.locWritable w l := by
  cases l <;> simp [State.locWritable, h.writable]

theorem locReadable (w l) : t.locReadable w l = s.locReadable w l := by
  cases l <;> simp [State.locReadable, h.readable]

theorem plainWalks : t.plainWalks = s.plainWalks := by simp [State.plainWalks, h.params]

end Agree

theorem agree_withFlags (s : State) (f) : Agree s (s.withFlags f) := ⟨rfl, rfl, rfl, rfl, rfl⟩

theorem agree_drawn (s : State) : Agree s s.drawn := ⟨rfl, rfl, rfl, rfl, rfl⟩

theorem agree_setReg (s : State) (r v) : Agree s (s.setReg r v) := ⟨rfl, rfl, rfl, rfl, rfl⟩

theorem agree_setView (s : State) (w r v) : Agree s (s.setView w r v) := by constructor <;> simp

theorem Agree.trans {s t u : State} (h : Agree s t) (k : Agree t u) : Agree s u :=
  ⟨k.cr0.trans h.cr0, k.cr3.trans h.cr3, k.mem.trans h.mem, k.params.trans h.params, k.segs.trans h.segs⟩

theorem canUpdate_iff {s : State} {w l} (h : s.canUpdate w l = true) :
    s.plainWalks = true ∧ s.locReadable w l = true ∧ s.locWritable w l = true := by
  simp only [State.canUpdate, Bool.and_eq_true] at h; exact ⟨h.1.1, h.1.2, h.2⟩

theorem canRead_iff {s : State} {w l} (h : s.canRead w l = true) :
    s.plainWalks = true ∧ s.locReadable w l = true := by
  simp only [State.canRead, Bool.and_eq_true] at h; exact h

theorem canWrite_iff {s : State} {w l} (h : s.canWrite w l = true) :
    s.plainWalks = true ∧ s.locWritable w l = true := by
  simp only [State.canWrite, Bool.and_eq_true] at h; exact h

end Sys2Proof.Machine
end

