-- ==== Sys2Proof/Laws/Encode.lean ====
section
/-! SUPPORT. The lengths of encodings (30_encoding R182). -/

namespace Sys2Proof

theorem Disp16.encode_length (d : Disp16) : d.encode.2.length = d.length := by
  cases d <;> rfl

theorem Disp32.encode_length (d : Disp32) : d.encode.2.length = d.length := by
  cases d <;> rfl

theorem MemOp.encode_length (reg : BitVec 3) (m : MemOp) : (m.encode reg).length = 1 + m.length := by
  cases m <;> simp [MemOp.encode, MemOp.length, halfBytes, wordBytes, Disp16.encode_length, Disp32.encode_length] <;>
    omega

theorem RM.encode_length (reg : BitVec 3) (rm : RM) : (rm.encode reg).length = 1 + rm.length := by
  cases rm with
  | reg r => rfl
  | mem m => exact m.encode_length reg

/-- A context's sizes are 16 or 32 bits (30_encoding R168). -/
theorem Ctx.osz_cases (c : Ctx) : c.osz = .b16 ∨ c.osz = .b32 := by
  unfold Ctx.osz; split <;> simp

theorem Ctx.asz_cases (c : Ctx) : c.asz = .b16 ∨ c.asz = .b32 := by
  unfold Ctx.asz; split <;> simp

theorem Imm.encode_length (c : Ctx) (i : Imm) : (i.encode c).length = i.length c := by
  cases i <;> rcases c.osz_cases with h | h <;> rcases c.asz_cases with h' | h' <;>
    simp [Imm.encode, Imm.length, sizedBytes, halfBytes, wordBytes, h, h']

theorem Tail.encode_length (c : Ctx) (digit : BitVec 3) (t : Tail) : (t.encode c digit).length = t.length c := by
  cases t <;> simp [Tail.encode, Tail.length, RM.encode_length, Imm.encode_length]

theorem Instr.opcode_length (i : Instr) : i.opcode.1.length = if i.form.escaped then 2 else 1 := by
  cases i <;> rfl

/-- The bytes of an instruction are as many as its layout says (30_encoding R182). -/
theorem Instr.encode_length (c : Ctx) (i : Instr) : (i.encode c).length = i.form.length c := by
  simp [Instr.encode, Form.length, Instr.opcode_length, Tail.encode_length, Nat.add_assoc]

end Sys2Proof
end

