-- ==== Sys2Proof/Laws/Keeps.lean ====
section
/-! SUPPORT. For each shared operation, the relations between start and end that every successful run of it keeps, once
and for all: a relation that holds of no change and of changes in sequence, and of the writes the operation makes. -/

namespace Sys2Proof.Machine

variable {R : State → State → Prop} {α : Type}

/-- The relation holds of a one-byte write to physical memory. -/
def OfWrite (R : State → State → Prop) : Prop :=
  ∀ s a v, a < s.params.memSize → R s { s with mem := Memory.write s.mem a v }

/-- The relation holds of a one-byte write made by a page walk (20_memory R134). -/
def OfMark (R : State → State → Prop) : Prop :=
  ∀ s a v, s.params.pagingSetsAD = true → a < s.params.memSize → R s { s with mem := Memory.write s.mem a v }

/-- The relation holds of a draw. -/
def OfDraw (R : State → State → Prop) : Prop :=
  ∀ s, R s { s with draws := s.draws + 1 }

/-- The relation holds of a write of one general register. -/
def OfReg (R : State → State → Prop) (r : Reg) : Prop :=
  ∀ s v, R s (s.setReg r v)

/-- The relation holds of a write of EIP. -/
def OfEip (R : State → State → Prop) : Prop :=
  ∀ s v, R s { s with eip := v }

/-- The relation holds of a write of one segment register. -/
def OfSeg (R : State → State → Prop) (r : SReg) : Prop :=
  ∀ s v, R s (s.setSeg r v)

theorem OfWrite.mark (h : OfWrite R) : OfMark R :=
  fun s a v _ ha => h s a v ha

theorem physRead_keeps (hR : Preserved R) (a : Word) : Keeps R (physRead a) :=
  .bind hR (.get hR) fun _ => .bind hR (.check hR _ _) fun _ => .pure hR _

theorem physReads_keeps (hR : Preserved R) (as : List Word) : Keeps R (physReads as) := by
  induction as with
  | nil => exact .pure hR _
  | cons a as ih => exact .bind hR (physRead_keeps hR a) fun _ => .bind hR ih fun _ => .pure hR _

theorem physWrite_keeps (hw : OfWrite R) (a : Word) (v : Byte) : Keeps R (physWrite a v) := by
  intro s b t h
  simp only [physWrite, bind_ok, get_run] at h
  obtain ⟨x, u, hx, y, u', hc, hs⟩ := h
  cases hx
  obtain ⟨hlt, rfl⟩ := check_ok.1 hc
  cases hs
  exact hw u' a.toNat v (by simpa using hlt)

theorem physWrites_keeps (hR : Preserved R) (hw : OfWrite R) (as : List Word) (bs : List Byte) :
    Keeps R (physWrites as bs) := by
  induction as generalizing bs with
  | nil => exact .pure hR _
  | cons a as ih =>
    cases bs with
    | nil => exact .pure hR _
    | cons b bs => exact .bind hR (physWrite_keeps hw a b) fun _ => ih bs

theorem memRead_keeps (hR : Preserved R) (a : Word) (n : Nat) : Keeps R (memRead a n) :=
  .bind hR (physReads_keeps hR _) fun _ => .pure hR _

theorem memWrite_keeps (hR : Preserved R) (hw : OfWrite R) (a : Word) (n v : Nat) : Keeps R (memWrite a n v) :=
  physWrites_keeps hR hw _ _

theorem markAccessed_keeps (hR : Preserved R) (hm : OfMark R) (pdeAt pde pteAt pte : Word) (acc : Access) :
    Keeps R (markAccessed pdeAt pde pteAt pte acc) := by
  let Q : State → State → Prop := fun s t =>
    s.params.pagingSetsAD = true → R s t ∧ t.params = s.params
  have hQ : Preserved Q :=
    ⟨fun s _ => ⟨hR.refl s, rfl⟩, fun s t u h1 h2 hs =>
      have a := h1 hs
      have b := h2 (by rw [a.2]; exact hs)
      ⟨hR.trans s t u a.1 b.1, b.2.trans a.2⟩⟩
  have hW : OfWrite Q := fun s a v ha hs => ⟨hm s a v hs ha, rfl⟩
  have hset : ∀ (b : Bool) (e v : Word), Keeps Q (setEntry b e v) :=
    fun b e v => .ite (.pure hQ _) (memWrite_keeps hQ hW _ _ _)
  intro s b t h
  replace h : (if s.params.pagingSetsAD = true then
      setEntry (pde.getLsbD 5) pdeAt (pde ||| 0x20) >>= fun _ =>
        setEntry (pte.getLsbD 5 && (acc != .write || pte.getLsbD 6)) pteAt
          (pte ||| 0x20 ||| (if acc = .write then 0x40 else 0))
      else Pure.pure ()) s = .ok (b, t) := h
  by_cases had : s.params.pagingSetsAD = true
  · rw [if_pos had] at h
    exact (Keeps.bind hQ (hset _ _ _) (fun _ => hset _ _ _) s b t h had).1
  · rw [if_neg had] at h
    cases h
    exact hR.refl _

theorem translate_keeps (hR : Preserved R) (hm : OfMark R) (acc : Access) (user : Bool) (lin : Word) :
    Keeps R (translate acc user lin) :=
  .bind hR (.get hR) fun _ => .ite
    (.bind hR (memRead_keeps hR _ _) fun _ => .bind hR (.check hR _ _) fun _ => .bind hR (memRead_keeps hR _ _) fun _ =>
      .bind hR (.check hR _ _) fun _ => .bind hR (.check hR _ _) fun _ =>
      .bind hR (markAccessed_keeps hR hm _ _ _ _ _) fun _ => .pure hR _)
    (.pure hR _)

theorem translates_keeps (hR : Preserved R) (hm : OfMark R) (acc : Access) (user : Bool) (as : List Word) :
    Keeps R (translates acc user as) := by
  induction as with
  | nil => exact .pure hR _
  | cons a as ih => exact .bind hR (translate_keeps hR hm acc user a) fun _ => .bind hR ih fun _ => .pure hR _

theorem linRead_keeps (hR : Preserved R) (hm : OfMark R) (acc : Access) (user : Bool) (lin : Word) (n : Nat) :
    Keeps R (linRead acc user lin n) :=
  .bind hR (translates_keeps hR hm _ _ _) fun _ => .bind hR (physReads_keeps hR _) fun _ => .pure hR _

theorem linWrite_keeps (hR : Preserved R) (hw : OfWrite R) (user : Bool) (lin : Word) (n v : Nat) :
    Keeps R (linWrite user lin n v) :=
  .bind hR (translates_keeps hR hw.mark _ _ _) fun _ => physWrites_keeps hR hw _ _

theorem checkSegment_keeps (hR : Preserved R) (r : SReg) (off : Word) (n : Nat) (acc : Access) :
    Keeps R (checkSegment r off n acc) := by
  refine .bind hR (.get hR) fun s => .bind hR (.check hR _ _) fun _ => .ite ?_ (.pure hR _)
  cases acc with
  | fetch => exact .pure hR _
  | write => exact .check hR _ _
  | read => exact .bind hR (.check hR _ _) fun _ => .check hR _ _

theorem segRead_keeps (hR : Preserved R) (hm : OfMark R) (r : SReg) (off : Word) (n : Nat) :
    Keeps R (segRead r off n) :=
  .bind hR (checkSegment_keeps hR _ _ _ _) fun _ => .bind hR (.get hR) fun _ => linRead_keeps hR hm _ _ _ _

theorem segWrite_keeps (hR : Preserved R) (hw : OfWrite R) (r : SReg) (off : Word) (n v : Nat) :
    Keeps R (segWrite r off n v) :=
  .bind hR (checkSegment_keeps hR _ _ _ _) fun _ => .bind hR (.get hR) fun _ => linWrite_keeps hR hw _ _ _ _

theorem checkPresent_keeps (hR : Preserved R) (as : List Word) : Keeps R (checkPresent as) := by
  induction as with
  | nil => exact .pure hR _
  | cons a as ih => exact .bind hR (.get hR) fun _ => .bind hR (.check hR _ _) fun _ => ih

theorem checkSegWrite_keeps (hR : Preserved R) (hm : OfMark R) (r : SReg) (off : Word) (n : Nat) :
    Keeps R (checkSegWrite r off n) :=
  .bind hR (checkSegment_keeps hR _ _ _ _) fun _ => .bind hR (.get hR) fun _ =>
    .bind hR (translates_keeps hR hm _ _ _) fun _ => checkPresent_keeps hR _

theorem fetchByte_keeps (hR : Preserved R) (hm : OfMark R) (off : Word) : Keeps R (fetchByte off) :=
  .bind hR (checkSegment_keeps hR _ _ _ _) fun _ => .bind hR (.get hR) fun _ =>
    .bind hR (linRead_keeps hR hm _ _ _ _) fun _ => .pure hR _

theorem fetchAddress_keeps (hR : Preserved R) (hm : OfMark R) (off : Word) : Keeps R (fetchAddress off) :=
  .bind hR (checkSegment_keeps hR _ _ _ _) fun _ => .bind hR (.get hR) fun _ => translate_keeps hR hm _ _ _

theorem fetchBytes_keeps (hR : Preserved R) (hm : OfMark R) (n : Nat) (off : Word) : Keeps R (fetchBytes n off) := by
  induction n generalizing off with
  | zero => exact .pure hR _
  | succ n ih => exact .bind hR (fetchByte_keeps hR hm off) fun _ => ih _

theorem touchFetch_keeps (hR : Preserved R) (hm : OfMark R) : Keeps R touchFetch :=
  .bind hR (.get hR) fun _ => .ite (fetchBytes_keeps hR hm _ _) (.pure hR _)

theorem readDescriptor_keeps (hR : Preserved R) (hm : OfMark R) (sel : Half) (vec : Byte) (ext : Bool) :
    Keeps R (readDescriptor sel vec ext) :=
  .bind hR (.get hR) fun _ => .bind hR (.check hR _ _) fun _ => .bind hR (.check hR _ _) fun _ =>
    .bind hR (linRead_keeps hR hm _ _ _ _) fun _ => .pure hR _

theorem markDescriptor_keeps (hR : Preserved R) (hw : OfWrite R) (sel : Half) (d : Desc) (mask : Byte) :
    Keeps R (markDescriptor sel d mask) :=
  .bind hR (.get hR) fun _ => .ite (linWrite_keeps hR hw _ _ _ _) (.pure hR _)

theorem draw_keeps (hd : OfDraw R) : Keeps R draw :=
  fun s _ t h => by cases h; exact hd s

theorem modifyFlags_keeps {f : Word → Word} (hf : ∀ s, R s { s with eflags := f s.eflags }) :
    Keeps R (modifyFlags f) :=
  .modify hf

theorem setEip_keeps (he : OfEip R) (v : Word) : Keeps R (setEip v) :=
  .modify fun s => he s v

theorem advance_keeps (he : OfEip R) : Keeps R advance :=
  .modify fun s => he s _

/-! ### Registers and operands -/

/-- The register that a write through a view changes (10_state R32). -/
def viewHome (w : Size) (r : Reg) : Reg :=
  if w = .b8 then (byteHome r).1 else r

theorem ofView {w : Size} {r : Reg} (h : OfReg R (viewHome w r)) (s : State) (v : BitVec w.bits) :
    R s (s.setView w r v) := by
  cases w
  · exact h s _
  · exact h s _
  · exact h s v

theorem readReg_keeps (hR : Preserved R) (w : Size) (r : Reg) : Keeps R (readReg w r) :=
  .bind hR (.get hR) fun _ => .pure hR _

theorem writeReg_keeps {w : Size} {r : Reg} (h : OfReg R (viewHome w r)) (v : BitVec w.bits) :
    Keeps R (writeReg w r v) :=
  .modify fun s => ofView h s v

theorem readLoc_keeps (hR : Preserved R) (hm : OfMark R) (w : Size) (l : Loc) : Keeps R (readLoc w l) := by
  cases l with
  | reg r => exact readReg_keeps hR w r
  | mem r off => exact .bind hR (segRead_keeps hR hm _ _ _) fun _ => .pure hR _

/-- The relation holds of the register writes that a location stands for. -/
def OfLoc (R : State → State → Prop) (w : Size) : Loc → Prop
  | .reg r => OfReg R (viewHome w r)
  | .mem _ _ => True

/-- The same for an r/m operand. -/
def OfRM (R : State → State → Prop) (w : Size) : RM → Prop
  | .reg r => OfReg R (viewHome w r)
  | .mem _ => True

theorem OfRM.loc {w : Size} {rm : RM} (h : OfRM R w rm) (s : State) : OfLoc R w (locate s rm) := by
  cases rm
  · exact h
  · trivial

theorem writeLoc_keeps (hR : Preserved R) (hw : OfWrite R) {w : Size} {l : Loc} (h : OfLoc R w l)
    (v : BitVec w.bits) : Keeps R (writeLoc w l v) := by
  cases l with
  | reg r => exact writeReg_keeps h v
  | mem r off => exact segWrite_keeps hR hw _ _ _ _

theorem readRM_keeps (hR : Preserved R) (hm : OfMark R) (w : Size) (rm : RM) : Keeps R (readRM w rm) :=
  .bind hR (.get hR) fun _ => readLoc_keeps hR hm _ _

theorem writeRM_keeps (hR : Preserved R) (hw : OfWrite R) {w : Size} {rm : RM} (h : OfRM R w rm)
    (v : BitVec w.bits) : Keeps R (writeRM w rm v) :=
  .bind hR (.get hR) fun s => writeLoc_keeps hR hw (h.loc s) v

/-! ### The stack -/

theorem ofStackPointer (h : OfReg R .esp) (s : State) (v : Word) : R s (s.setStackPointer v) := by
  unfold State.setStackPointer
  split
  · exact h s _
  · exact h s _

theorem push_keeps (hR : Preserved R) (hw : OfWrite R) (h : OfReg R .esp) (n v : Nat) : Keeps R (push n v) :=
  .bind hR (.get hR) fun _ => .bind hR (segWrite_keeps hR hw _ _ _ _) fun _ => .modify fun s => ofStackPointer h s _

theorem pop_keeps (hR : Preserved R) (hm : OfMark R) (h : OfReg R .esp) (n : Nat) : Keeps R (pop n) :=
  .bind hR (.get hR) fun _ => .bind hR (segRead_keeps hR hm _ _ _) fun _ =>
    .bind hR (.modify fun s => ofStackPointer h s _) fun _ => .pure hR _

theorem release_keeps (h : OfReg R .esp) (iw : Half) : Keeps R (release iw) :=
  .modify fun s => ofStackPointer h s _

theorem selImage_keeps (hR : Preserved R) (hd : OfDraw R) (n : Nat) (sel : Half) : Keeps R (selImage n sel) :=
  .ite (.bind hR (draw_keeps hd) fun _ => .pure hR _) (.pure hR _)

/-! ### Segment loads and control transfers -/

theorem loadDataSeg_keeps (hR : Preserved R) (hw : OfWrite R) {r : SReg} (h : OfSeg R r) (sel : Half) :
    Keeps R (loadDataSeg r sel) :=
  .bind hR (.get hR) fun _ => .ite (.modify fun s => h s _)
    (.bind hR (readDescriptor_keeps hR hw.mark _ _ _) fun _ => .bind hR (.check hR _ _) fun _ =>
      .bind hR (.check hR _ _) fun _ => .bind hR (.check hR _ _) fun _ => .bind hR (.check hR _ _) fun _ =>
      .bind hR (.modify fun s => h s _) fun _ => markDescriptor_keeps hR hw _ _ _)

theorem loadSS_keeps (hR : Preserved R) (hw : OfWrite R) (h : OfSeg R .ss) (sel : Half) : Keeps R (loadSS sel) :=
  .bind hR (.get hR) fun _ => .bind hR (.check hR _ _) fun _ =>
    .bind hR (readDescriptor_keeps hR hw.mark _ _ _) fun _ => .bind hR (.check hR _ _) fun _ =>
    .bind hR (.check hR _ _) fun _ => .bind hR (.check hR _ _) fun _ => .bind hR (.check hR _ _) fun _ =>
    .bind hR (.modify fun s => h s _) fun _ => markDescriptor_keeps hR hw _ _ _

theorem loadSReg_keeps (hR : Preserved R) (hw : OfWrite R) {r : SReg} (h : OfSeg R r) (sel : Half) :
    Keeps R (loadSReg r sel) := by
  refine .bind hR (.get hR) fun s => .ite ?_ (.modify fun t => h t _)
  split
  · subst_vars
    exact loadSS_keeps hR hw h sel
  · exact loadDataSeg_keeps hR hw h sel

theorem nearTarget_keeps (hR : Preserved R) (he : OfEip R) (osz : Size) (t : Word) : Keeps R (nearTarget osz t) :=
  .bind hR (.get hR) fun _ => .bind hR (.check hR _ _) fun _ => setEip_keeps he _

theorem ofFar (hR : Preserved R) (hs : OfSeg R .cs) (he : OfEip R) (s : State) (g : Segment) (v : Word) :
    R s { s.setSeg .cs g with eip := v } :=
  hR.trans _ _ _ (hs s g) (he _ v)

theorem checkFarTarget_keeps (hR : Preserved R) (hm : OfMark R) (sel : Half) (off : Word) :
    Keeps R (checkFarTarget sel off) :=
  .bind hR (.get hR) fun _ => .bind hR (.check hR _ _) fun _ => .bind hR (readDescriptor_keeps hR hm _ _ _) fun _ =>
    .bind hR (.check hR _ _) fun _ => .bind hR (.check hR _ _) fun _ => .bind hR (.check hR _ _) fun _ =>
    .bind hR (.check hR _ _) fun _ => .bind hR (.check hR _ _) fun _ => .bind hR (.check hR _ _) fun _ => .pure hR _

theorem farTransfer_keeps (hR : Preserved R) (hw : OfWrite R) (hs : OfSeg R .cs) (he : OfEip R) (osz : Size)
    (sel : Half) (off : Word) {between : Exec Unit} (hb : Keeps R between) :
    Keeps R (farTransfer osz sel off between) :=
  .bind hR (.get hR) fun _ => .ite
    (.bind hR (checkFarTarget_keeps hR hw.mark _ _) fun _ => .bind hR hb fun _ =>
      .bind hR (.modify fun s => ofFar hR hs he s _ _) fun _ => markDescriptor_keeps hR hw _ _ _)
    (.bind hR (.check hR _ _) fun _ => .bind hR hb fun _ => .modify fun s => ofFar hR hs he s _ _)

theorem stackSegFor_keeps (hR : Preserved R) (hm : OfMark R) (sel : Half) (lvl : BitVec 2) (vec : Byte) (ext : Bool) :
    Keeps R (stackSegFor sel lvl vec ext) :=
  .bind hR (.check hR _ _) fun _ => .bind hR (readDescriptor_keeps hR hm _ _ _) fun _ =>
    .bind hR (.check hR _ _) fun _ => .bind hR (.check hR _ _) fun _ => .pure hR _

/-- InvalidateDataSegs as four writes of segment registers (46_control_transfer R451). -/
theorem ofInvalidate (hR : Preserved R) (hs : ∀ r, OfSeg R r) (lvl : BitVec 2) : Keeps R (invalidateDataSegs lvl) :=
  .modify fun s =>
    have h := hR.trans _ _ _ (hs .es s (s.segs.es.invalidated lvl)) (hR.trans _ _ _ (hs .ds _ (s.segs.ds.invalidated lvl))
      (hR.trans _ _ _ (hs .fs _ (s.segs.fs.invalidated lvl)) (hs .gs _ (s.segs.gs.invalidated lvl))))
    h

theorem setOuterPointer_keeps (hR : Preserved R) (hd : OfDraw R) (h : OfReg R .esp) (osz : Size) (nsp : Nat) :
    Keeps R (setOuterPointer osz nsp) :=
  .ite (.modify fun s => h s _) (.bind hR (draw_keeps hd) fun _ => .modify fun s => h s _)

/-- What every far return may do: write memory (page walks only), ESP, EIP and segment registers, and draw. -/
theorem outwardReturn_keeps (hR : Preserved R) (hm : OfMark R) (hd : OfDraw R) (h : OfReg R .esp)
    (hs : ∀ r, OfSeg R r) (he : OfEip R) (osz : Size) (cs : Segment) (off : Word) (lvl : BitVec 2) (iw : Half) :
    Keeps R (outwardReturn osz cs off lvl iw) :=
  .bind hR (pop_keeps hR hm h _) fun _ => .bind hR (pop_keeps hR hm h _) fun _ =>
    .bind hR (stackSegFor_keeps hR hm _ _ _ _) fun _ => .bind hR (.modify fun s => ofFar hR (hs .cs) he s _ _) fun _ =>
    .bind hR (.modify fun s => hs .ss s _) fun _ => .bind hR (setOuterPointer_keeps hR hd h _ _) fun _ =>
    .bind hR (release_keeps h _) fun _ => ofInvalidate hR hs _

theorem farReturn_keeps (hR : Preserved R) (hm : OfMark R) (hd : OfDraw R) (h : OfReg R .esp)
    (hs : ∀ r, OfSeg R r) (he : OfEip R) (osz : Size) (sel : Half) (off : Word) (iw : Half) :
    Keeps R (farReturn osz sel off iw) :=
  .bind hR (.get hR) fun _ => .bind hR (.check hR _ _) fun _ => .bind hR (.check hR _ _) fun _ =>
    .bind hR (readDescriptor_keeps hR hm _ _ _) fun _ => .bind hR (.check hR _ _) fun _ =>
    .bind hR (.check hR _ _) fun _ => .bind hR (.check hR _ _) fun _ => .bind hR (.check hR _ _) fun _ =>
    .bind hR (release_keeps h _) fun _ =>
    .ite (.modify fun s => ofFar hR (hs .cs) he s _ _) (outwardReturn_keeps hR hm hd h hs he _ _ _ _ _)

theorem realFarReturn_keeps (hR : Preserved R) (h : OfReg R .esp) (hs : OfSeg R .cs) (he : OfEip R) (osz : Size)
    (sel : Half) (off : Word) (iw : Half) : Keeps R (realFarReturn osz sel off iw) :=
  .bind hR (release_keeps h _) fun _ => .bind hR (.get hR) fun _ => .bind hR (.check hR _ _) fun _ =>
    .modify fun s => ofFar hR hs he s _ _

theorem returnTo_keeps (hR : Preserved R) (hm : OfMark R) (hd : OfDraw R) (h : OfReg R .esp)
    (hs : ∀ r, OfSeg R r) (he : OfEip R) (osz : Size) (sel : Half) (off : Word) (iw : Half) :
    Keeps R (returnTo osz sel off iw) :=
  .bind hR (.get hR) fun _ =>
    .ite (farReturn_keeps hR hm hd h hs he _ _ _ _) (realFarReturn_keeps hR h (hs .cs) he _ _ _ _)

theorem retFar_keeps (hR : Preserved R) (hm : OfMark R) (hd : OfDraw R) (h : OfReg R .esp)
    (hs : ∀ r, OfSeg R r) (he : OfEip R) (osz : Size) (iw : Half) : Keeps R (retFar osz iw) :=
  .bind hR (pop_keeps hR hm h _) fun _ => .bind hR (pop_keeps hR hm h _) fun _ =>
    returnTo_keeps hR hm hd h hs he _ _ _ _

theorem interruptReturn_keeps (hR : Preserved R) (hm : OfMark R) (hd : OfDraw R) (h : OfReg R .esp)
    (hs : ∀ r, OfSeg R r) (he : OfEip R)
    (hf : ∀ s pop0 popI v, R s { s with eflags := maskedFlags (popMask pop0 popI) s.eflags v }) (osz : Size) :
    Keeps R (interruptReturn osz) :=
  .bind hR (.get hR) fun _ => .bind hR (.check hR _ _) fun _ => .bind hR (pop_keeps hR hm h _) fun _ =>
    .bind hR (pop_keeps hR hm h _) fun _ => .bind hR (pop_keeps hR hm h _) fun _ =>
    .bind hR (.check hR _ _) fun _ => .bind hR (returnTo_keeps hR hm hd h hs he _ _ _ _) fun _ =>
    .modify fun s => hf s _ _ _

/-! ### Taking an exception -/

/-- The relation holds of the end of a delivery: EIP, the flags TF, NT and IF, the dispatcher state and the single-step
latch (60_exceptions R501, R502). -/
def OfEnter (R : State → State → Prop) : Prop :=
  ∀ s eip clear, (clear = realFlags ∨ ∃ t, clear = gateFlags t) →
    R s { s with eip := eip, eflags := clear s.eflags, activity := .running, tfAtStart := false }

theorem readTssStack_keeps (hR : Preserved R) (hm : OfMark R) (lvl : BitVec 2) (ext : Bool) :
    Keeps R (readTssStack lvl ext) :=
  .bind hR (.get hR) fun _ => .bind hR (.check hR _ _) fun _ => .bind hR (linRead_keeps hR hm _ _ _ _) fun _ =>
    .bind hR (linRead_keeps hR hm _ _ _ _) fun _ => .pure hR _

theorem stackSwitch_keeps (hR : Preserved R) (hm : OfMark R) (h : OfReg R .esp) (hs : OfSeg R .ss) (lvl : BitVec 2)
    (ext : Bool) : Keeps R (stackSwitch lvl ext) :=
  .bind hR (readTssStack_keeps hR hm _ _) fun _ => .bind hR (stackSegFor_keeps hR hm _ _ _ _) fun _ =>
    .modify fun s => hR.trans _ _ _ (hs s _) (h _ _)

theorem readGate_keeps (hR : Preserved R) (hm : OfMark R) (vec : Byte) (src : Source) : Keeps R (readGate vec src) :=
  .bind hR (.get hR) fun _ => .bind hR (.check hR _ _) fun _ => .bind hR (linRead_keeps hR hm _ _ _ _) fun _ =>
    .bind hR (.check hR _ _) fun _ => .bind hR (.check hR _ _) fun _ => .bind hR (.check hR _ _) fun _ =>
    .bind hR (.check hR _ _) fun _ => .pure hR _

theorem readHandler_keeps (hR : Preserved R) (hm : OfMark R) (g : Desc) (ext : Bool) : Keeps R (readHandler g ext) :=
  .bind hR (.get hR) fun _ => .bind hR (.check hR _ _) fun _ => .bind hR (readDescriptor_keeps hR hm _ _ _) fun _ =>
    .bind hR (.check hR _ _) fun _ => .bind hR (.check hR _ _) fun _ => .bind hR (.check hR _ _) fun _ => .pure hR _

theorem enterLevel_keeps (hR : Preserved R) (hw : OfWrite R) (hd : OfDraw R) (h : OfReg R .esp) (hc : OfSeg R .cs)
    (hss : OfSeg R .ss) (s : State) (sel : Half) (d : Desc) (n : Nat) (ext : Bool) :
    Keeps R (enterLevel s sel d n ext) :=
  .ite (.bind hR (stackSwitch_keeps hR hw.mark h hss _ _) fun _ => .bind hR (.modify fun s => hc s _) fun _ =>
    .bind hR (selImage_keeps hR hd _ _) fun _ => .bind hR (push_keeps hR hw h _ _) fun _ => push_keeps hR hw h _ _)
    (.modify fun s => hc s _)

/-- Everything a delivery does: it writes memory, ESP, CS, SS and what OfEnter names, and draws (60_exceptions R506). -/
theorem deliver_keeps (hR : Preserved R) (hw : OfWrite R) (hd : OfDraw R) (h : OfReg R .esp) (hc : OfSeg R .cs)
    (hss : OfSeg R .ss) (he : OfEnter R) (vec : Byte) (src : Source) (err : Option Half) (ret : Word) :
    Keeps R (deliver vec src err ret) := by
  refine .bind hR (.get hR) fun s => .ite ?_ ?_
  · refine .bind hR (.get hR) fun _ => .bind hR (readGate_keeps hR hw.mark _ _) fun g =>
      .bind hR (readHandler_keeps hR hw.mark _ _) fun _ => .bind hR (enterLevel_keeps hR hw hd h hc hss _ _ _ _ _)
      fun _ => .bind hR (push_keeps hR hw h _ _) fun _ => .bind hR (selImage_keeps hR hd _ _) fun _ =>
      .bind hR (push_keeps hR hw h _ _) fun _ => .bind hR (push_keeps hR hw h _ _) fun _ =>
      .bind hR (.ite (push_keeps hR hw h _ _) (.pure hR _)) fun _ => .modify fun s => he s _ _ (.inr ⟨_, rfl⟩)
  · exact .bind hR (.get hR) fun _ => .bind hR (.check hR _ _) fun _ => .bind hR (linRead_keeps hR hw.mark _ _ _ _)
      fun _ => .bind hR (push_keeps hR hw h _ _) fun _ => .bind hR (push_keeps hR hw h _ _) fun _ =>
      .bind hR (push_keeps hR hw h _ _) fun _ => .bind hR (.modify fun s => hc s _) fun _ =>
      .bind hR (.check hR _ _) fun _ => .modify fun s => he s _ _ (.inl rfl)

end Sys2Proof.Machine
end

