-- ==== Sys2Proof/Laws/Families.lean ====
section
/-! SUPPORT. For each operation of the instruction families, the relations that every successful run of it keeps. -/

namespace Sys2Proof.Machine

variable {R : State → State → Prop}

/-- The relation holds of a write of one flag. -/
def OfFlag (R : State → State → Prop) (f : Flag) : Prop :=
  ∀ s b, R s { s with eflags := setFlag f b s.eflags }

/-- The relation holds of a write of any of the six status flags (10_state R38). -/
def OfStatus (R : State → State → Prop) : Prop :=
  ∀ f, (f = .cf ∨ f = .pf ∨ f = .af ∨ f = .zf ∨ f = .sf ∨ f = .of) → OfFlag R f

/-- A flags function that sets status flags, each to some value, and nothing else. -/
inductive StatusSets : (Word → Word) → Prop where
  | none : StatusSets fun fl => fl
  | set (f : Flag) (b : Word → Bool) (g : Word → Word)
      (hf : f = .cf ∨ f = .pf ∨ f = .af ∨ f = .zf ∨ f = .sf ∨ f = .of) (hg : StatusSets g) :
      StatusSets fun fl => setFlag f (b fl) (g fl)

theorem StatusSets.of {g : Word → Word} (h : StatusSets g) (hR : Preserved R) (hs : OfStatus R) (s : State) :
    R s { s with eflags := g s.eflags } := by
  induction h with
  | none => exact hR.refl s
  | set f b g hf hg ih => exact hR.trans _ _ _ ih (hs f hf { s with eflags := g s.eflags } _)

theorem modifyStatus_keeps (hR : Preserved R) (hs : OfStatus R) {g : Word → Word} (h : StatusSets g) :
    Keeps R (modifyFlags g) :=
  .modify fun s => h.of hR hs s

theorem statusSets_zsp {w : Nat} (r : BitVec w) {g : Word → Word} (hg : StatusSets g) :
    StatusSets fun fl => zsp r (g fl) :=
  .set .zf _ _ (by decide) (.set .sf _ _ (by decide) (.set .pf _ _ (by decide) hg))

theorem statusSets_add {w : Nat} (a b : BitVec w) (c : Bool) : StatusSets (addFlags a b c) :=
  .set .cf _ _ (by decide) (.set .of _ _ (by decide) (.set .af _ _ (by decide) (statusSets_zsp _ .none)))

theorem statusSets_sub {w : Nat} (a b : BitVec w) (c : Bool) : StatusSets (subFlags a b c) :=
  .set .cf _ _ (by decide) (.set .of _ _ (by decide) (.set .af _ _ (by decide) (statusSets_zsp _ .none)))

theorem statusSets_inc {w : Nat} (a : BitVec w) : StatusSets (incFlags a) :=
  .set .of _ _ (by decide) (.set .af _ _ (by decide) (statusSets_zsp _ .none))

theorem statusSets_dec {w : Nat} (a : BitVec w) : StatusSets (decFlags a) :=
  .set .of _ _ (by decide) (.set .af _ _ (by decide) (statusSets_zsp _ .none))

theorem statusSets_logic {w : Nat} (u : Word) (r : BitVec w) : StatusSets (logicFlags u r) :=
  .set .cf _ _ (by decide) (.set .of _ _ (by decide) (.set .af _ _ (by decide) (statusSets_zsp _ .none)))

theorem statusSets_mul (u : Word) (big : Bool) : StatusSets (mulFlags u big) :=
  .set .cf _ _ (by decide) (.set .of _ _ (by decide) (.set .sf _ _ (by decide) (.set .zf _ _ (by decide)
    (.set .af _ _ (by decide) (.set .pf _ _ (by decide) .none)))))

theorem statusSets_undefined (u : Word) : StatusSets (undefinedFlags u) :=
  .set .cf _ _ (by decide) (.set .of _ _ (by decide) (.set .sf _ _ (by decide) (.set .zf _ _ (by decide)
    (.set .af _ _ (by decide) (.set .pf _ _ (by decide) .none)))))

theorem statusSets_shift {w : Nat} (op : ShiftOp) (u : Word) (a : BitVec w) (c : Nat) :
    StatusSets (shiftFlags op u a c) := by
  cases op <;>
    refine .set .cf _ (fun fl => setFlag .of _ (shiftOtherFlags _ _ _ fl)) (by decide) (.set .of _ _ (by decide) ?_)
  · exact .none
  · exact .none
  · exact .none
  · exact .none
  · exact statusSets_zsp (a <<< c) (.set .af _ _ (by decide) .none)
  · exact statusSets_zsp (a >>> c) (.set .af _ _ (by decide) .none)
  · exact statusSets_zsp (a.sshiftRight (min c (w - 1))) (.set .af _ _ (by decide) .none)

theorem statusSets_doubleShift {w : Nat} (left : Bool) (u : Word) (a b : BitVec w) (c : Nat) :
    StatusSets (doubleShiftFlags left u a b c) :=
  .set .cf _ _ (by decide) (.set .of _ _ (by decide) (statusSets_zsp _ (.set .af _ _ (by decide) .none)))

/-! ### Operations and operand shapes -/

/-- Every run of a two-operand operation keeps the relation. -/
def BinKeeps (R : State → State → Prop) (op : BinOp) : Prop :=
  ∀ w a b, Keeps R (op w a b)

/-- Every run of a one-operand operation keeps the relation. -/
def UnKeeps (R : State → State → Prop) (op : UnOp) : Prop :=
  ∀ w a, Keeps R (op w a)

section
variable (hR : Preserved R) (hs : OfStatus R) (hd : OfDraw R) (hm : OfMark R) (hw : OfWrite R)
include hR

theorem addOp_keeps (hs : OfStatus R) : BinKeeps R addOp := fun _ _ _ =>
  .bind hR (modifyStatus_keeps hR hs (statusSets_add _ _ _)) fun _ => .pure hR _

theorem adcOp_keeps (hs : OfStatus R) : BinKeeps R adcOp := fun _ _ _ =>
  .bind hR (.get hR) fun _ => .bind hR (modifyStatus_keeps hR hs (statusSets_add _ _ _)) fun _ => .pure hR _

theorem subOp_keeps (hs : OfStatus R) : BinKeeps R subOp := fun _ _ _ =>
  .bind hR (modifyStatus_keeps hR hs (statusSets_sub _ _ _)) fun _ => .pure hR _

theorem sbbOp_keeps (hs : OfStatus R) : BinKeeps R sbbOp := fun _ _ _ =>
  .bind hR (.get hR) fun _ => .bind hR (modifyStatus_keeps hR hs (statusSets_sub _ _ _)) fun _ => .pure hR _

theorem incOp_keeps (hs : OfStatus R) : UnKeeps R incOp := fun _ _ =>
  .bind hR (modifyStatus_keeps hR hs (statusSets_inc _)) fun _ => .pure hR _

theorem decOp_keeps (hs : OfStatus R) : UnKeeps R decOp := fun _ _ =>
  .bind hR (modifyStatus_keeps hR hs (statusSets_dec _)) fun _ => .pure hR _

theorem negOp_keeps (hs : OfStatus R) : UnKeeps R negOp := fun _ _ =>
  .bind hR (modifyStatus_keeps hR hs (statusSets_sub _ _ _)) fun _ => .pure hR _

theorem notOp_keeps : UnKeeps R notOp := fun _ _ => .pure hR _

theorem logicResult_keeps (hs : OfStatus R) (hd : OfDraw R) {n : Nat} (r : BitVec n) : Keeps R (logicResult r) :=
  .bind hR (draw_keeps hd) fun _ => .bind hR (modifyStatus_keeps hR hs (statusSets_logic _ _)) fun _ => .pure hR _

theorem andOp_keeps (hs : OfStatus R) (hd : OfDraw R) : BinKeeps R andOp := fun _ _ _ => logicResult_keeps hR hs hd _

theorem orOp_keeps (hs : OfStatus R) (hd : OfDraw R) : BinKeeps R orOp := fun _ _ _ => logicResult_keeps hR hs hd _

theorem xorOp_keeps (hs : OfStatus R) (hd : OfDraw R) : BinKeeps R xorOp := fun _ _ _ => logicResult_keeps hR hs hd _

theorem rmFromReg_keeps (hw : OfWrite R) {op : BinOp} (ho : BinKeeps R op) {w : Size} {rm : RM} (h : OfRM R w rm)
    (r : Reg) : Keeps R (rmFromReg op w rm r) :=
  .bind hR (.get hR) fun s => .bind hR (readLoc_keeps hR hw.mark _ _) fun _ => .bind hR (readReg_keeps hR _ _) fun _ =>
    .bind hR (ho _ _ _) fun _ => writeLoc_keeps hR hw (h.loc s) _

theorem regFromRM_keeps (hm : OfMark R) {op : BinOp} (ho : BinKeeps R op) {w : Size} {r : Reg}
    (h : OfReg R (viewHome w r)) (rm : RM) : Keeps R (regFromRM op w r rm) :=
  .bind hR (readReg_keeps hR _ _) fun _ => .bind hR (readRM_keeps hR hm _ _) fun _ => .bind hR (ho _ _ _) fun _ =>
    writeReg_keeps h _

theorem rmFromImm_keeps (hw : OfWrite R) {op : BinOp} (ho : BinKeeps R op) {w : Size} {rm : RM} (h : OfRM R w rm)
    (b : BitVec w.bits) : Keeps R (rmFromImm op w rm b) :=
  .bind hR (.get hR) fun s => .bind hR (readLoc_keeps hR hw.mark _ _) fun _ => .bind hR (ho _ _ _) fun _ =>
    writeLoc_keeps hR hw (h.loc s) _

theorem regFromImm_keeps {op : BinOp} (ho : BinKeeps R op) {w : Size} {r : Reg} (h : OfReg R (viewHome w r))
    (b : BitVec w.bits) : Keeps R (regFromImm op w r b) :=
  .bind hR (readReg_keeps hR _ _) fun _ => .bind hR (ho _ _ _) fun _ => writeReg_keeps h _

theorem testRMReg_keeps (hm : OfMark R) {op : BinOp} (ho : BinKeeps R op) (w : Size) (rm : RM) (r : Reg) :
    Keeps R (testRMReg op w rm r) :=
  .bind hR (readRM_keeps hR hm _ _) fun _ => .bind hR (readReg_keeps hR _ _) fun _ => .bind hR (ho _ _ _) fun _ =>
    .pure hR _

theorem testRegRM_keeps (hm : OfMark R) {op : BinOp} (ho : BinKeeps R op) (w : Size) (r : Reg) (rm : RM) :
    Keeps R (testRegRM op w r rm) :=
  .bind hR (readReg_keeps hR _ _) fun _ => .bind hR (readRM_keeps hR hm _ _) fun _ => .bind hR (ho _ _ _) fun _ =>
    .pure hR _

theorem testRMImm_keeps (hm : OfMark R) {op : BinOp} (ho : BinKeeps R op) (w : Size) (rm : RM) (b : BitVec w.bits) :
    Keeps R (testRMImm op w rm b) :=
  .bind hR (readRM_keeps hR hm _ _) fun _ => .bind hR (ho _ _ _) fun _ => .pure hR _

theorem testRegImm_keeps {op : BinOp} (ho : BinKeeps R op) (w : Size) (r : Reg) (b : BitVec w.bits) :
    Keeps R (testRegImm op w r b) :=
  .bind hR (readReg_keeps hR _ _) fun _ => .bind hR (ho _ _ _) fun _ => .pure hR _

theorem updateRM_keeps (hw : OfWrite R) {op : UnOp} (ho : UnKeeps R op) {w : Size} {rm : RM} (h : OfRM R w rm) :
    Keeps R (updateRM op w rm) :=
  .bind hR (.get hR) fun s => .bind hR (readLoc_keeps hR hw.mark _ _) fun _ => .bind hR (ho _ _) fun _ =>
    writeLoc_keeps hR hw (h.loc s) _

theorem updateReg_keeps {op : UnOp} (ho : UnKeeps R op) {w : Size} {r : Reg} (h : OfReg R (viewHome w r)) :
    Keeps R (updateReg op w r) :=
  .bind hR (readReg_keeps hR _ _) fun _ => .bind hR (ho _ _) fun _ => writeReg_keeps h _

theorem writePair_keeps {w : Size} (ha : OfReg R .eax) (hd : OfReg R .edx) (hi lo : BitVec w.bits) :
    Keeps R (writePair w hi lo) := by
  refine .bind hR (writeReg_keeps (r := .eax) ?_ _) fun _ => writeReg_keeps (r := highReg w) ?_ _
  · cases w <;> exact ha
  · cases w
    · exact ha
    · exact hd
    · exact hd

theorem mulAcc_keeps (hs : OfStatus R) (hd : OfDraw R) (hm : OfMark R) (ha : OfReg R .eax) (hx : OfReg R .edx)
    (w : Size) (rm : RM) : Keeps R (mulAcc w rm) :=
  .bind hR (readRM_keeps hR hm _ _) fun _ => .bind hR (readReg_keeps hR _ _) fun _ =>
    .bind hR (writePair_keeps hR ha hx _ _) fun _ => .bind hR (draw_keeps hd) fun _ =>
    modifyStatus_keeps hR hs (statusSets_mul _ _)

theorem imulAcc_keeps (hs : OfStatus R) (hd : OfDraw R) (hm : OfMark R) (ha : OfReg R .eax) (hx : OfReg R .edx)
    (w : Size) (rm : RM) : Keeps R (imulAcc w rm) :=
  .bind hR (readRM_keeps hR hm _ _) fun _ => .bind hR (readReg_keeps hR _ _) fun _ =>
    .bind hR (writePair_keeps hR ha hx _ _) fun _ => .bind hR (draw_keeps hd) fun _ =>
    modifyStatus_keeps hR hs (statusSets_mul _ _)

theorem imulStore_keeps (hs : OfStatus R) (hd : OfDraw R) {w : Size} {r : Reg} (h : OfReg R (viewHome w r))
    (f1 f2 : BitVec w.bits) : Keeps R (imulStore w r f1 f2) :=
  .bind hR (writeReg_keeps h _) fun _ => .bind hR (draw_keeps hd) fun _ =>
    modifyStatus_keeps hR hs (statusSets_mul _ _)

theorem imulReg_keeps (hs : OfStatus R) (hd : OfDraw R) (hm : OfMark R) {w : Size} {r : Reg}
    (h : OfReg R (viewHome w r)) (rm : RM) : Keeps R (imulReg w r rm) :=
  .bind hR (readReg_keeps hR _ _) fun _ => .bind hR (readRM_keeps hR hm _ _) fun _ =>
    imulStore_keeps hR hs hd h _ _

theorem imulImm_keeps (hs : OfStatus R) (hd : OfDraw R) (hm : OfMark R) {w : Size} {r : Reg}
    (h : OfReg R (viewHome w r)) (rm : RM) (b : BitVec w.bits) : Keeps R (imulImm w r rm b) :=
  .bind hR (readRM_keeps hR hm _ _) fun _ => imulStore_keeps hR hs hd h _ _

theorem divAcc_keeps (hs : OfStatus R) (hd : OfDraw R) (hm : OfMark R) (ha : OfReg R .eax) (hx : OfReg R .edx)
    (w : Size) (rm : RM) : Keeps R (divAcc w rm) :=
  .bind hR (readRM_keeps hR hm _ _) fun _ => .bind hR (.check hR _ _) fun _ => .bind hR (.get hR) fun _ =>
    .bind hR (.check hR _ _) fun _ => .bind hR (writePair_keeps hR ha hx _ _) fun _ =>
    .bind hR (draw_keeps hd) fun _ => modifyStatus_keeps hR hs (statusSets_undefined _)

theorem idivAcc_keeps (hs : OfStatus R) (hd : OfDraw R) (hm : OfMark R) (ha : OfReg R .eax) (hx : OfReg R .edx)
    (w : Size) (rm : RM) : Keeps R (idivAcc w rm) :=
  .bind hR (readRM_keeps hR hm _ _) fun _ => .bind hR (.check hR _ _) fun _ => .bind hR (.get hR) fun _ =>
    .bind hR (.check hR _ _) fun _ => .bind hR (writePair_keeps hR ha hx _ _) fun _ =>
    .bind hR (draw_keeps hd) fun _ => modifyStatus_keeps hR hs (statusSets_undefined _)

theorem setOnCond_keeps (hw : OfWrite R) {rm : RM} (h : OfRM R .b8 rm) (cc : Cond) : Keeps R (setOnCond cc rm) :=
  .bind hR (.get hR) fun _ => writeRM_keeps hR hw h _

theorem shiftRM_keeps (hs : OfStatus R) (hd : OfDraw R) (hw : OfWrite R) {w : Size} {rm : RM} (h : OfRM R w rm)
    (op : ShiftOp) (n : Nat) : Keeps R (shiftRM op w rm n) :=
  .bind hR (.get hR) fun s => .bind hR (readLoc_keeps hR hw.mark _ _) fun _ => .ite (.pure hR _)
    (.bind hR (draw_keeps hd) fun _ => .bind hR (modifyStatus_keeps hR hs (statusSets_shift _ _ _ _)) fun _ =>
      writeLoc_keeps hR hw (h.loc s) _)

theorem doubleShiftRM_keeps (hs : OfStatus R) (hd : OfDraw R) (hw : OfWrite R) {w : Size} {rm : RM}
    (h : OfRM R w rm) (left : Bool) (r : Reg) (n : Nat) : Keeps R (doubleShiftRM left w rm r n) :=
  .bind hR (.get hR) fun s => .bind hR (readLoc_keeps hR hw.mark _ _) fun _ => .bind hR (readReg_keeps hR _ _) fun _ =>
    .ite (.pure hR _) (.ite
      (.bind hR (draw_keeps hd) fun _ => .bind hR (draw_keeps hd) fun _ =>
        .bind hR (modifyStatus_keeps hR hs (statusSets_undefined _)) fun _ => writeLoc_keeps hR hw (h.loc s) _)
      (.bind hR (draw_keeps hd) fun _ => .bind hR (modifyStatus_keeps hR hs (statusSets_doubleShift _ _ _ _ _)) fun _ =>
        writeLoc_keeps hR hw (h.loc s) _))

/-! ### Strings and ports -/

/-- The relation holds of a recorded device call. -/
def OfEvent (R : State → State → Prop) : Prop :=
  ∀ s e, R s { s with events := s.events ++ [e] }

omit hR in
theorem State.setIndex_eq (s : State) (r : Reg) (v : Word) : ∃ x, s.setIndex r v = s.setReg r x := by
  unfold State.setIndex
  rcases s.ctx.asz_cases with h | h <;> rw [h]
  · exact ⟨_, rfl⟩
  · exact ⟨_, rfl⟩

omit hR in
theorem ofIndex {r : Reg} (h : OfReg R r) (s : State) (v : Word) : R s (s.setIndex r v) := by
  obtain ⟨x, hx⟩ := s.setIndex_eq r v
  rw [hx]
  exact h s x

omit hR in
theorem advanceIndex_keeps {r : Reg} (h : OfReg R r) (w : Size) : Keeps R (advanceIndex w r) :=
  .modify fun s => ofIndex h s _

omit hR in
theorem countDown_keeps (h : OfReg R .ecx) : Keeps R (modify State.countDown : Exec PUnit) :=
  .modify fun s => ofIndex h s _

theorem readSource_keeps (hm : OfMark R) (w : Size) : Keeps R (readSource w) :=
  .bind hR (.get hR) fun _ => .bind hR (segRead_keeps hR hm _ _ _) fun _ => .pure hR _

theorem readDest_keeps (hm : OfMark R) (w : Size) : Keeps R (readDest w) :=
  .bind hR (.get hR) fun _ => .bind hR (segRead_keeps hR hm _ _ _) fun _ => .pure hR _

theorem writeDest_keeps (hw : OfWrite R) (w : Size) (v : BitVec w.bits) : Keeps R (writeDest w v) :=
  .bind hR (.get hR) fun _ => segWrite_keeps hR hw _ _ _ _

theorem stringStep_keeps (hc : OfReg R .ecx) (he : OfEip R) {body : Exec Unit} (hb : Keeps R body) (zterm : Bool) :
    Keeps R (stringStep body zterm) := by
  have hstep : ∀ kind, Keeps R (repeatStep kind body zterm) := fun kind =>
    .bind hR hb fun _ => .bind hR (countDown_keeps hc) fun _ => .bind hR (.get hR) fun _ =>
      .ite (advance_keeps he) (.pure hR _)
  refine .bind hR (.get hR) fun s => ?_
  cases repeatOf s.ctx.pfx .none
  · exact .bind hR hb fun _ => advance_keeps he
  · exact .ite (advance_keeps he) (hstep _)
  · exact .ite (advance_keeps he) (hstep _)

theorem movsBody_keeps (hw : OfWrite R) (h1 : OfReg R .esi) (h2 : OfReg R .edi) (w : Size) : Keeps R (movsBody w) :=
  .bind hR (readSource_keeps hR hw.mark _) fun _ => .bind hR (writeDest_keeps hR hw _ _) fun _ =>
    .bind hR (advanceIndex_keeps h1 _) fun _ => advanceIndex_keeps h2 _

theorem cmpsBody_keeps (hs : OfStatus R) (hm : OfMark R) (h1 : OfReg R .esi) (h2 : OfReg R .edi) (w : Size) :
    Keeps R (cmpsBody w) :=
  .bind hR (readSource_keeps hR hm _) fun _ => .bind hR (readDest_keeps hR hm _) fun _ =>
    .bind hR (subOp_keeps hR hs _ _ _) fun _ => .bind hR (advanceIndex_keeps h1 _) fun _ => advanceIndex_keeps h2 _

theorem stosBody_keeps (hw : OfWrite R) (h2 : OfReg R .edi) (w : Size) : Keeps R (stosBody w) :=
  .bind hR (readReg_keeps hR _ _) fun _ => .bind hR (writeDest_keeps hR hw _ _) fun _ => advanceIndex_keeps h2 _

omit hR in
theorem ofAcc (w : Size) (h : OfReg R .eax) : OfReg R (viewHome w .eax) := by
  cases w <;> exact h

theorem lodsBody_keeps (hm : OfMark R) (ha : OfReg R .eax) (h1 : OfReg R .esi) (w : Size) : Keeps R (lodsBody w) :=
  .bind hR (readSource_keeps hR hm _) fun _ => .bind hR (writeReg_keeps (ofAcc w ha) _) fun _ =>
    advanceIndex_keeps h1 _

theorem scasBody_keeps (hs : OfStatus R) (hm : OfMark R) (h2 : OfReg R .edi) (w : Size) : Keeps R (scasBody w) :=
  .bind hR (readReg_keeps hR _ _) fun _ => .bind hR (readDest_keeps hR hm _) fun _ =>
    .bind hR (subOp_keeps hR hs _ _ _) fun _ => advanceIndex_keeps h2 _

omit hR in
theorem recordEvent_keeps (hv : OfEvent R) (e : HostEvent) : Keeps R (recordEvent e) :=
  .modify fun s => hv s e

theorem portRead_keeps (hd : OfDraw R) (hv : OfEvent R) (port : Half) (w : Size) : Keeps R (portRead port w) :=
  .bind hR (.get hR) fun _ => .ite
    (.bind hR (draw_keeps hd) fun _ => .bind hR (recordEvent_keeps hv _) fun _ => .pure hR _) (.pure hR _)

theorem portWrite_keeps (hv : OfEvent R) (port : Half) (w : Size) (v : Word) : Keeps R (portWrite port w v) :=
  .bind hR (.get hR) fun _ => .ite (recordEvent_keeps hv _) (.pure hR _)

theorem portIn_keeps (hd : OfDraw R) (hv : OfEvent R) (port : Half) (w : Size) : Keeps R (portIn port w) := by
  cases w with
  | b8 => exact portRead_keeps hR hd hv _ _
  | b16 => exact portRead_keeps hR hd hv _ _
  | b32 =>
    exact .bind hR (portRead_keeps hR hd hv _ _) fun _ => .bind hR (portRead_keeps hR hd hv _ _) fun _ => .pure hR _

theorem portOut_keeps (hv : OfEvent R) (port : Half) (w : Size) (v : Word) : Keeps R (portOut port w v) := by
  cases w with
  | b8 => exact portWrite_keeps hR hv _ _ _
  | b16 => exact portWrite_keeps hR hv _ _ _
  | b32 => exact .bind hR (portWrite_keeps hR hv _ _ _) fun _ => portWrite_keeps hR hv _ _ _

theorem ioCheck_keeps : Keeps R ioCheck :=
  .bind hR (.get hR) fun _ => .check hR _ _

theorem privCheck_keeps : Keeps R privCheck :=
  .bind hR (.get hR) fun _ => .check hR _ _

theorem insBody_keeps (hd : OfDraw R) (hv : OfEvent R) (hw : OfWrite R) (h2 : OfReg R .edi) (w : Size) :
    Keeps R (insBody w) :=
  .bind hR (ioCheck_keeps hR) fun _ => .bind hR (.get hR) fun _ => .bind hR (checkSegWrite_keeps hR hw.mark _ _ _)
    fun _ => .bind hR (portIn_keeps hR hd hv _ _) fun _ => .bind hR (writeDest_keeps hR hw _ _) fun _ =>
    advanceIndex_keeps h2 _

theorem outsBody_keeps (hv : OfEvent R) (hm : OfMark R) (h1 : OfReg R .esi) (w : Size) : Keeps R (outsBody w) :=
  .bind hR (ioCheck_keeps hR) fun _ => .bind hR (readSource_keeps hR hm _) fun _ => .bind hR (.get hR) fun _ =>
    .bind hR (portOut_keeps hR hv _ _ _) fun _ => advanceIndex_keeps h1 _

theorem inPort_keeps (hd : OfDraw R) (hv : OfEvent R) (ha : OfReg R .eax) (w : Size) (port : Half) :
    Keeps R (inPort w port) :=
  .bind hR (ioCheck_keeps hR) fun _ => .bind hR (portIn_keeps hR hd hv _ _) fun _ => writeReg_keeps (ofAcc w ha) _

theorem outPort_keeps (hv : OfEvent R) (w : Size) (port : Half) : Keeps R (outPort w port) :=
  .bind hR (ioCheck_keeps hR) fun _ => .bind hR (readReg_keeps hR _ _) fun _ => portOut_keeps hR hv _ _ _

/-! ### The stack family -/

theorem pushReg_keeps (hw : OfWrite R) (h : OfReg R .esp) (w : Size) (r : Reg) : Keeps R (pushReg w r) :=
  .bind hR (readReg_keeps hR _ _) fun _ => push_keeps hR hw h _ _

theorem pushRM_keeps (hw : OfWrite R) (h : OfReg R .esp) (w : Size) (rm : RM) : Keeps R (pushRM w rm) :=
  .bind hR (readRM_keeps hR hw.mark _ _) fun _ => push_keeps hR hw h _ _

theorem pushSReg_keeps (hd : OfDraw R) (hw : OfWrite R) (h : OfReg R .esp) (w : Size) (r : SReg) :
    Keeps R (pushSReg w r) :=
  .bind hR (.get hR) fun _ => .bind hR (selImage_keeps hR hd _ _) fun _ => push_keeps hR hw h _ _

theorem popReg_keeps (hm : OfMark R) (h : OfReg R .esp) {w : Size} {r : Reg} (hr : OfReg R (viewHome w r)) :
    Keeps R (popReg w r) :=
  .bind hR (pop_keeps hR hm h _) fun _ => writeReg_keeps hr _

theorem popRM_keeps (hw : OfWrite R) (h : OfReg R .esp) {w : Size} {rm : RM} (hr : OfRM R w rm) :
    Keeps R (popRM w rm) :=
  .bind hR (pop_keeps hR hw.mark h _) fun _ => writeRM_keeps hR hw hr _

theorem popSReg_keeps (hw : OfWrite R) (h : OfReg R .esp) {r : SReg} (hr : OfSeg R r) (w : Size) :
    Keeps R (popSReg w r) :=
  .bind hR (pop_keeps hR hw.mark h _) fun _ => loadSReg_keeps hR hw hr _

theorem pushList_keeps (hw : OfWrite R) (h : OfReg R .esp) (n : Nat) (vs : List Nat) : Keeps R (pushList n vs) := by
  induction vs with
  | nil => exact .pure hR _
  | cons v vs ih => exact .bind hR (push_keeps hR hw h _ _) fun _ => ih

theorem pushAll_keeps (hw : OfWrite R) (h : OfReg R .esp) (w : Size) : Keeps R (pushAll w) :=
  .bind hR (.get hR) fun _ => pushList_keeps hR hw h _ _

theorem popAll_keeps (hm : OfMark R) (h : ∀ r, OfReg R r) (w : Size) : Keeps R (popAll w) :=
  have p : ∀ r, Keeps R (popReg w r) := fun _ => popReg_keeps hR hm (h _) (h _)
  .bind hR (p _) fun _ => .bind hR (p _) fun _ => .bind hR (p _) fun _ => .bind hR (pop_keeps hR hm (h _) _) fun _ =>
    .bind hR (p _) fun _ => .bind hR (p _) fun _ => .bind hR (p _) fun _ => p _

theorem pushFlags_keeps (hw : OfWrite R) (h : OfReg R .esp) (w : Size) : Keeps R (pushFlags w) :=
  .bind hR (.get hR) fun _ => push_keeps hR hw h _ _

/-- POPF writes EFLAGS under the mask of the privilege held before it (43_stack R346); b says what the relation needs to
know of that privilege. -/
theorem popFlags_keeps (hm : OfMark R) (h : OfReg R .esp)
    (hf : ∀ s v, R s { s with eflags := maskedFlags (popMask s.priv0 s.ioPriv) s.eflags v }) (w : Size) :
    Keeps R (popFlags w) :=
  .bind hR (pop_keeps hR hm h _) fun _ => .getBind fun s _ t ht => by cases ht; exact hf s _

theorem leaveFrame_keeps (hm : OfMark R) (h : OfReg R .esp) {w : Size} (hb : OfReg R (viewHome w .ebp)) :
    Keeps R (leaveFrame w) :=
  .bind hR (.modify fun s => ofStackPointer h s _) fun _ => popReg_keeps hR hm h hb

/-! ### System instructions -/

theorem readPseudo_keeps (hm : OfMark R) (osz : Size) (m : MemOp) : Keeps R (readPseudo osz m) :=
  .bind hR (.get hR) fun _ => .bind hR (segRead_keeps hR hm _ _ _) fun _ => .pure hR _

theorem storeTable_keeps (hd : OfDraw R) (hw : OfWrite R) (osz : Size) (m : MemOp) (t : TableReg) :
    Keeps R (storeTable osz m t) :=
  .bind hR (.get hR) fun _ => .bind hR (.ite (.pure hR _) (.bind hR (draw_keeps hd) fun _ => .pure hR _)) fun _ =>
    segWrite_keeps hR hw _ _ _ _

theorem protectedOnly_keeps : Keeps R protectedOnly :=
  .bind hR (.get hR) fun _ => .check hR _ _

theorem storeHalf_keeps (hd : OfDraw R) (hw : OfWrite R) {rm : RM} (h : OfRM R .b32 rm) (osz : Size) (v : Half) :
    Keeps R (storeHalf osz rm v) := by
  refine .bind hR (.get hR) fun s => ?_
  cases rm with
  | reg r => exact .ite (.bind hR (draw_keeps hd) fun _ => writeReg_keeps h _) (writeReg_keeps (w := .b16) h _)
  | mem m => exact segWrite_keeps hR hw _ _ _ _

theorem storeProtected_keeps (hd : OfDraw R) (hw : OfWrite R) {rm : RM} (h : OfRM R .b32 rm) (osz : Size) (v : Half) :
    Keeps R (storeProtected osz rm v) :=
  .bind hR (protectedOnly_keeps hR) fun _ => storeHalf_keeps hR hd hw h _ _

theorem clobberFlags_keeps (hs : OfStatus R) (hd : OfDraw R) : Keeps R clobberFlags :=
  .bind hR (draw_keeps hd) fun _ => modifyStatus_keeps hR hs (statusSets_undefined _)

theorem moveToSeg_keeps (hw : OfWrite R) {r : SReg} (h : OfSeg R r) (rm : RM) : Keeps R (moveToSeg r rm) :=
  .bind hR (readRM_keeps hR hw.mark _ _) fun _ => loadSReg_keeps hR hw h _

theorem loadFarPointer_keeps (hw : OfWrite R) {t : SReg} (h : OfSeg R t) {osz : Size} {r : Reg}
    (hr : OfReg R (viewHome osz r)) (m : MemOp) : Keeps R (loadFarPointer t osz r m) :=
  .bind hR (.get hR) fun _ => .bind hR (segRead_keeps hR hw.mark _ _ _) fun _ =>
    .bind hR (loadSReg_keeps hR hw h _) fun _ => writeReg_keeps hr _

theorem setInterruptFlag_keeps (hf : OfFlag R .intf) (v : Bool) : Keeps R (setInterruptFlag v) :=
  .bind hR (.get hR) fun _ => .bind hR (.check hR _ _) fun _ => .modify fun s => hf s v

/-! ### Data movement -/

theorem moveToRM_keeps (hw : OfWrite R) {w : Size} {rm : RM} (h : OfRM R w rm) (r : Reg) : Keeps R (moveToRM w rm r) :=
  .bind hR (readReg_keeps hR _ _) fun _ => writeRM_keeps hR hw h _

theorem moveToReg_keeps (hm : OfMark R) {w : Size} {r : Reg} (h : OfReg R (viewHome w r)) (rm : RM) :
    Keeps R (moveToReg w r rm) :=
  .bind hR (readRM_keeps hR hm _ _) fun _ => writeReg_keeps h _

theorem loadMoffs_keeps (hm : OfMark R) (ha : OfReg R .eax) (w : Size) (off : Word) : Keeps R (loadMoffs w off) :=
  .bind hR (.get hR) fun _ => .bind hR (segRead_keeps hR hm _ _ _) fun _ => writeReg_keeps (ofAcc w ha) _

theorem storeMoffs_keeps (hw : OfWrite R) (w : Size) (off : Word) : Keeps R (storeMoffs w off) :=
  .bind hR (.get hR) fun _ => segWrite_keeps hR hw _ _ _ _

theorem exchangeRM_keeps (hw : OfWrite R) {w : Size} {rm : RM} {r : Reg} (h : OfRM R w rm)
    (hr : OfReg R (viewHome w r)) : Keeps R (exchangeRM w rm r) :=
  .bind hR (.get hR) fun s => .bind hR (readLoc_keeps hR hw.mark _ _) fun _ => .bind hR (readReg_keeps hR _ _) fun _ =>
    .bind hR (writeLoc_keeps hR hw (h.loc s) _) fun _ => writeReg_keeps hr _

theorem exchangeAcc_keeps (ha : OfReg R .eax) {w : Size} {r : Reg} (hr : OfReg R (viewHome w r)) :
    Keeps R (exchangeAcc w r) :=
  .bind hR (readReg_keeps hR _ _) fun _ => .bind hR (readReg_keeps hR _ _) fun _ =>
    .bind hR (writeReg_keeps (ofAcc w ha) _) fun _ => writeReg_keeps hr _

theorem loadAddress_keeps {w : Size} {r : Reg} (hr : OfReg R (viewHome w r)) (m : MemOp) :
    Keeps R (loadAddress w r m) :=
  .bind hR (.get hR) fun _ => writeReg_keeps hr _

theorem moveZero_keeps (hm : OfMark R) {w : Size} {r : Reg} (hr : OfReg R (viewHome w r)) (src : Size) (rm : RM) :
    Keeps R (moveZero src w r rm) :=
  .bind hR (readRM_keeps hR hm _ _) fun _ => writeReg_keeps hr _

theorem moveSign_keeps (hm : OfMark R) {w : Size} {r : Reg} (hr : OfReg R (viewHome w r)) (src : Size) (rm : RM) :
    Keeps R (moveSign src w r rm) :=
  .bind hR (readRM_keeps hR hm _ _) fun _ => writeReg_keeps hr _

theorem convertAcc_keeps (ha : OfReg R .eax) (w : Size) : Keeps R (convertAcc w) :=
  .bind hR (.get hR) fun _ => .ite (writeReg_keeps ha _) (writeReg_keeps ha _)

theorem extendAcc_keeps {w : Size} (h : OfReg R (viewHome w .edx)) : Keeps R (extendAcc w) :=
  .bind hR (.get hR) fun _ => writeReg_keeps h _

theorem translateAcc_keeps (hm : OfMark R) (ha : OfReg R .eax) : Keeps R translateAcc :=
  .bind hR (.get hR) fun _ => .bind hR (segRead_keeps hR hm _ _ _) fun _ => writeReg_keeps ha _

theorem loadAh_keeps (ha : OfReg R .eax) : Keeps R loadAh :=
  .bind hR (.get hR) fun _ => writeReg_keeps ha _

theorem storeAh_keeps (hf : ∀ s v, R s { s with eflags := sahfFlags s.eflags v }) : Keeps R storeAh :=
  .bind hR (.get hR) fun _ => .modify fun s => hf s _

/-! ### Control transfer -/

theorem jumpRel_keeps (he : OfEip R) (osz : Size) (rel : Word) : Keeps R (jumpRel osz rel) :=
  .bind hR (.get hR) fun _ => nearTarget_keeps hR he _ _

theorem branchIf_keeps (he : OfEip R) (b : Bool) (osz : Size) (rel : Word) : Keeps R (branchIf b osz rel) :=
  .ite (jumpRel_keeps hR he _ _) (advance_keeps he)

theorem jumpCond_keeps (he : OfEip R) (cc : Cond) (osz : Size) (rel : Word) : Keeps R (jumpCond cc osz rel) :=
  .bind hR (.get hR) fun _ => branchIf_keeps hR he _ _ _

theorem jumpRM_keeps (hm : OfMark R) (he : OfEip R) (osz : Size) (rm : RM) : Keeps R (jumpRM osz rm) :=
  .bind hR (readRM_keeps hR hm _ _) fun _ => nearTarget_keeps hR he _ _

theorem jumpCountZero_keeps (he : OfEip R) (osz : Size) (rel : Word) : Keeps R (jumpCountZero osz rel) :=
  .bind hR (.get hR) fun _ => branchIf_keeps hR he _ _ _

theorem loopBranch_keeps (hc : OfReg R .ecx) (he : OfEip R) (zf : State → Bool) (osz : Size) (rel : Word) :
    Keeps R (loopBranch zf osz rel) :=
  .bind hR (countDown_keeps hc) fun _ => .bind hR (.get hR) fun _ => branchIf_keeps hR he _ _ _

theorem callNear_keeps (hw : OfWrite R) (h : OfReg R .esp) (he : OfEip R) (osz : Size) (t : Word) :
    Keeps R (callNear osz t) :=
  .bind hR (.get hR) fun _ => .bind hR (push_keeps hR hw h _ _) fun _ => nearTarget_keeps hR he _ _

theorem callRel_keeps (hw : OfWrite R) (h : OfReg R .esp) (he : OfEip R) (osz : Size) (rel : Word) :
    Keeps R (callRel osz rel) :=
  .bind hR (.get hR) fun _ => callNear_keeps hR hw h he _ _

theorem callRM_keeps (hw : OfWrite R) (h : OfReg R .esp) (he : OfEip R) (osz : Size) (rm : RM) :
    Keeps R (callRM osz rm) :=
  .bind hR (readRM_keeps hR hw.mark _ _) fun _ => callNear_keeps hR hw h he _ _

theorem retNear_keeps (hm : OfMark R) (h : OfReg R .esp) (he : OfEip R) (osz : Size) (iw : Half) :
    Keeps R (retNear osz iw) :=
  .bind hR (pop_keeps hR hm h _) fun _ => .bind hR (release_keeps h _) fun _ => nearTarget_keeps hR he _ _

theorem readFarPointer_keeps (hm : OfMark R) (osz : Size) (m : MemOp) : Keeps R (readFarPointer osz m) :=
  .bind hR (.get hR) fun _ => .bind hR (segRead_keeps hR hm _ _ _) fun _ => .pure hR _

theorem jumpFar_keeps (hw : OfWrite R) (hs : OfSeg R .cs) (he : OfEip R) (osz : Size) (sel : Half) (off : Word) :
    Keeps R (jumpFar osz sel off) :=
  farTransfer_keeps hR hw hs he _ _ _ (.pure hR _)

theorem jumpFarMem_keeps (hw : OfWrite R) (hs : OfSeg R .cs) (he : OfEip R) (osz : Size) (m : MemOp) :
    Keeps R (jumpFarMem osz m) :=
  .bind hR (readFarPointer_keeps hR hw.mark _ _) fun _ => jumpFar_keeps hR hw hs he _ _ _

theorem pushReturn_keeps (hd : OfDraw R) (hw : OfWrite R) (h : OfReg R .esp) (osz : Size) :
    Keeps R (pushReturn osz) :=
  .bind hR (.get hR) fun _ => .bind hR (selImage_keeps hR hd _ _) fun _ => .bind hR (push_keeps hR hw h _ _) fun _ =>
    push_keeps hR hw h _ _

theorem callFar_keeps (hd : OfDraw R) (hw : OfWrite R) (h : OfReg R .esp) (hs : OfSeg R .cs) (he : OfEip R)
    (osz : Size) (sel : Half) (off : Word) : Keeps R (callFar osz sel off) :=
  farTransfer_keeps hR hw hs he _ _ _ (pushReturn_keeps hR hd hw h _)

theorem callFarMem_keeps (hd : OfDraw R) (hw : OfWrite R) (h : OfReg R .esp) (hs : OfSeg R .cs) (he : OfEip R)
    (osz : Size) (m : MemOp) : Keeps R (callFarMem osz m) :=
  .bind hR (readFarPointer_keeps hR hw.mark _ _) fun _ => callFar_keeps hR hd hw h hs he _ _ _

/-- INT n, INT3, INTO: the host's update, or a delivery (46_control_transfer R460). -/
theorem softInt_keeps (hw : OfWrite R) (hd : OfDraw R) (h : OfReg R .esp) (hc : OfSeg R .cs) (hss : OfSeg R .ss)
    (he : OfEnter R) (hh : ∀ s e, R s { s.hostCall e with eip := s.nextEip }) (vec : Byte) : Keeps R (softInt vec) :=
  .bind hR (.get hR) fun _ => .ite (.modify fun s => hh s _) (.ite (.modify fun s => hh s _)
    (deliver_keeps hR hw hd h hc hss he _ _ _ _))

end

/-- A step of an instruction whose body keeps a relation either keeps it or takes the exception that the body raised, on
the state as it was but for CR2 (60_exceptions R506). -/
theorem runInstr_next {R : State → State → Prop} (hR : Preserved R) (hm : OfMark R) {body : Exec Unit}
    (hb : Keeps R body) {s t : State} (h : runInstr body s = .next t) :
    R s t ∨ ∃ r : Raised, deliverEvent r.vec .fault r.err s.eip (s.withCr2 r.cr2) = .next t := by
  unfold runInstr at h
  cases hx : ((touchFetch >>= fun _ => body) s : Except Stop (Unit × State)) with
  | ok v =>
    rw [hx] at h
    cases h
    exact .inl (Keeps.bind hR (touchFetch_keeps hR hm) (fun _ => hb) s v.1 v.2 hx)
  | error e =>
    rw [hx] at h
    cases e with
    | raise r => exact .inr ⟨r, h⟩
    | fatal a => cases a <;> cases h

theorem seqInstr_next {R : State → State → Prop} (hR : Preserved R) (hm : OfMark R) (he : OfEip R)
    {body : Exec Unit} (hb : Keeps R body) {s t : State} (h : seqInstr body s = .next t) :
    R s t ∨ ∃ r : Raised, deliverEvent r.vec .fault r.err s.eip (s.withCr2 r.cr2) = .next t :=
  runInstr_next hR hm (.bind hR hb fun _ => advance_keeps he) h

end Sys2Proof.Machine
end

