-- ==== Sys2Proof/Laws/Forms.lean ====
section
/-! SUPPORT. The operand shapes of the arithmetic and logic instructions: each runs to one named state. -/

namespace Sys2Proof.Machine

/-- A two-operand operation computes an effect. -/
abbrev Computes (op : BinOp) (e : Effect) : Prop := ∀ w a b s, op w a b s = .ok ((e w a b s).1, (e w a b s).2)

/-- An effect changes nothing that memory accesses read. -/
abbrev EffAgree (e : Effect) : Prop := ∀ w a b s, Agree s (e w a b s).2

theorem rmFromReg_run {op e} (ho : Computes op e) (ha : EffAgree e) {s : State} {w rm r}
    (h : s.canUpdate w (locate s rm) = true) :
    seqInstr (rmFromReg op w rm r) s = .next (s.apply e w (locate s rm) (s.view w r)) := by
  obtain ⟨hp, hr, hw⟩ := canUpdate_iff h
  refine seqInstr_ok hp ?_
  simp only [rmFromReg, bind_run, get_run, readLoc_run hp hr, readReg_run, ho]
  rw [writeLoc_run (by rw [(ha _ _ _ _).plainWalks]; exact hp) _ (by rw [(ha _ _ _ _).locWritable]; exact hw)]

theorem rmFromImm_run {op e} (ho : Computes op e) (ha : EffAgree e) {s : State} {w rm b}
    (h : s.canUpdate w (locate s rm) = true) :
    seqInstr (rmFromImm op w rm b) s = .next (s.apply e w (locate s rm) b) := by
  obtain ⟨hp, hr, hw⟩ := canUpdate_iff h
  refine seqInstr_ok hp ?_
  simp only [rmFromImm, bind_run, get_run, readLoc_run hp hr, ho]
  rw [writeLoc_run (by rw [(ha _ _ _ _).plainWalks]; exact hp) _ (by rw [(ha _ _ _ _).locWritable]; exact hw)]

theorem regFromRM_run {op e} (ho : Computes op e) {s : State} {w rm r}
    (h : s.canRead w (locate s rm) = true) :
    seqInstr (regFromRM op w r rm) s = .next (s.apply e w (.reg r) (s.locValue w (locate s rm))) := by
  obtain ⟨hp, hr⟩ := canRead_iff h
  refine seqInstr_ok hp ?_
  simp only [regFromRM, bind_run, readReg_run, readRM_run hp hr, ho, writeReg_run]
  rfl

theorem regFromImm_run {op e} (ho : Computes op e) {s : State} {w r b}
    (h : s.plainWalks = true) :
    seqInstr (regFromImm op w r b) s = .next (s.apply e w (.reg r) b) := by
  refine seqInstr_ok h ?_
  simp only [regFromImm, bind_run, readReg_run, ho, writeReg_run]
  rfl

theorem testRMReg_run {op e} (ho : Computes op e) {s : State} {w rm r}
    (h : s.canRead w (locate s rm) = true) :
    seqInstr (testRMReg op w rm r) s = .next (s.compare e w (locate s rm) (s.view w r)) := by
  obtain ⟨hp, hr⟩ := canRead_iff h
  refine seqInstr_ok hp ?_
  simp only [testRMReg, bind_run, readReg_run, readRM_run hp hr, ho, pure_run]

theorem testRegRM_run {op e} (ho : Computes op e) {s : State} {w rm r}
    (h : s.canRead w (locate s rm) = true) :
    seqInstr (testRegRM op w r rm) s = .next (s.compare e w (.reg r) (s.locValue w (locate s rm))) := by
  obtain ⟨hp, hr⟩ := canRead_iff h
  refine seqInstr_ok hp ?_
  simp only [testRegRM, bind_run, readReg_run, readRM_run hp hr, ho, pure_run]
  rfl

theorem testRMImm_run {op e} (ho : Computes op e) {s : State} {w rm b}
    (h : s.canRead w (locate s rm) = true) :
    seqInstr (testRMImm op w rm b) s = .next (s.compare e w (locate s rm) b) := by
  obtain ⟨hp, hr⟩ := canRead_iff h
  refine seqInstr_ok hp ?_
  simp only [testRMImm, bind_run, readRM_run hp hr, ho, pure_run]

theorem testRegImm_run {op e} (ho : Computes op e) {s : State} {w r b}
    (h : s.plainWalks = true) :
    seqInstr (testRegImm op w r b) s = .next (s.compare e w (.reg r) b) := by
  refine seqInstr_ok h ?_
  simp only [testRegImm, bind_run, readReg_run, ho, pure_run]
  rfl

theorem addResult_false {w : Nat} (a b : BitVec w) : addResult a b false = a + b := by
  apply BitVec.eq_of_toNat_eq; simp [addResult, bit]

theorem comp_add : Computes addOp effectAdd := by
  intro w a b s; simp [addOp, bind_run, effectAdd, State.withFlags, addResult_false]

theorem addResult_carry {w : Size} (a b : BitVec w.bits) (s : State) : addResult a b (s.flag .cf) = a + b + carry w s := by
  apply BitVec.eq_of_toNat_eq
  cases h : s.flag .cf <;> cases w <;> simp [addResult, bit, carry, h, Nat.add_assoc]

theorem comp_adc : Computes adcOp effectAdc := by
  intro w a b s; simp [adcOp, bind_run, map_run, effectAdc, State.withFlags, addResult_carry]

theorem comp_sub : Computes subOp effectSub := by
  intro w a b s; simp [subOp, bind_run, effectSub, State.withFlags, subResult, bit]

theorem comp_sbb : Computes sbbOp effectSbb := by
  intro w a b s; simp only [sbbOp, bind_run, effectSbb, State.withFlags, subResult, bit, carry, get_run, modifyFlags_run, pure_run]
  split <;> rfl

theorem comp_and : Computes andOp effectAnd := by
  intro w a b s; simp [andOp, logicResult, bind_run, map_run, effectAnd, State.logic, State.withFlags, State.drawn, State.free]

theorem comp_or : Computes orOp effectOr := by
  intro w a b s; simp [orOp, logicResult, bind_run, map_run, effectOr, State.logic, State.withFlags, State.drawn, State.free]

theorem comp_xor : Computes xorOp effectXor := by
  intro w a b s; simp [xorOp, logicResult, bind_run, map_run, effectXor, State.logic, State.withFlags, State.drawn, State.free]

theorem ea_add : EffAgree effectAdd := fun _ _ _ _ => ⟨rfl, rfl, rfl, rfl, rfl⟩

theorem ea_adc : EffAgree effectAdc := fun _ _ _ _ => ⟨rfl, rfl, rfl, rfl, rfl⟩

theorem ea_sub : EffAgree effectSub := fun _ _ _ _ => ⟨rfl, rfl, rfl, rfl, rfl⟩

theorem ea_sbb : EffAgree effectSbb := fun _ _ _ _ => ⟨rfl, rfl, rfl, rfl, rfl⟩

theorem ea_and : EffAgree effectAnd := fun _ _ _ _ => ⟨rfl, rfl, rfl, rfl, rfl⟩

theorem ea_or : EffAgree effectOr := fun _ _ _ _ => ⟨rfl, rfl, rfl, rfl, rfl⟩

theorem ea_xor : EffAgree effectXor := fun _ _ _ _ => ⟨rfl, rfl, rfl, rfl, rfl⟩

/-- A one-operand operation computes an effect. -/
abbrev UComputes (op : UnOp) (e : UnEffect) : Prop := ∀ w a s, op w a s = .ok ((e w a s).1, (e w a s).2)

/-- A one-operand effect changes nothing that memory accesses read. -/
abbrev UEffAgree (e : UnEffect) : Prop := ∀ w a s, Agree s (e w a s).2

theorem updateRM_run {op e} (ho : UComputes op e) (ha : UEffAgree e) {s : State} {w rm}
    (h : s.canUpdate w (locate s rm) = true) :
    seqInstr (updateRM op w rm) s = .next (s.update e w (locate s rm)) := by
  obtain ⟨hp, hr, hw⟩ := canUpdate_iff h
  refine seqInstr_ok hp ?_
  simp only [updateRM, bind_run, get_run, readLoc_run hp hr, ho]
  rw [writeLoc_run (by rw [(ha _ _ _).plainWalks]; exact hp) _ (by rw [(ha _ _ _).locWritable]; exact hw)]

theorem updateReg_run {op e} (ho : UComputes op e) {s : State} {w r}
    (h : s.plainWalks = true) :
    seqInstr (updateReg op w r) s = .next (s.update e w (.reg r)) := by
  refine seqInstr_ok h ?_
  simp only [updateReg, bind_run, readReg_run, ho, writeReg_run]
  rfl

theorem uc_inc : UComputes incOp effectInc := by intro w a s; rfl

theorem uc_dec : UComputes decOp effectDec := by intro w a s; rfl

theorem uc_neg : UComputes negOp effectNeg := by
  intro w a s
  have : subResult (0 : BitVec w.bits) a false = -a := by simp [subResult, bit]
  simp only [negOp, effectNeg, bind_run, State.withFlags, this, modifyFlags_run, pure_run]

theorem uc_not : UComputes notOp effectNot := by intro w a s; rfl

theorem ua_inc : UEffAgree effectInc := fun _ _ _ => ⟨rfl, rfl, rfl, rfl, rfl⟩

theorem ua_dec : UEffAgree effectDec := fun _ _ _ => ⟨rfl, rfl, rfl, rfl, rfl⟩

theorem ua_neg : UEffAgree effectNeg := fun _ _ _ => ⟨rfl, rfl, rfl, rfl, rfl⟩

theorem ua_not : UEffAgree effectNot := fun _ _ _ => ⟨rfl, rfl, rfl, rfl, rfl⟩

end Sys2Proof.Machine
end

