-- ==== Sys2Proof/Laws/PerInstr.lean ====
section
/-! SUPPORT. Statements about every instruction, one lemma per constructor. -/

namespace Sys2Proof.Laws.Length

/-- A well-formed instruction is encoded in the number of bytes its context records (30_encoding R162, R182). -/
def Statement (i : Instr) : Prop :=
  ∀ c : Ctx, i.wf c = true → (i.encode c).length = c.ilen

theorem holds (i : Instr) : Statement i := by
  intro c h
  simp only [Instr.wf, Instr.lengthOk, Bool.and_eq_true, beq_iff_eq] at h
  rw [i.encode_length c, h.1.1.1]

theorem addRm8R8 (rm : RM) (r : Reg) : Statement (.addRm8R8 rm r) := holds _
theorem addRmvRv (rm : RM) (r : Reg) : Statement (.addRmvRv rm r) := holds _
theorem addR8Rm8 (r : Reg) (rm : RM) : Statement (.addR8Rm8 r rm) := holds _
theorem addRvRmv (r : Reg) (rm : RM) : Statement (.addRvRmv r rm) := holds _
theorem addAlIb (ib : Byte) : Statement (.addAlIb ib) := holds _
theorem addEaxIz (iz : Word) : Statement (.addEaxIz iz) := holds _
theorem orRm8R8 (rm : RM) (r : Reg) : Statement (.orRm8R8 rm r) := holds _
theorem orRmvRv (rm : RM) (r : Reg) : Statement (.orRmvRv rm r) := holds _
theorem orR8Rm8 (r : Reg) (rm : RM) : Statement (.orR8Rm8 r rm) := holds _
theorem orRvRmv (r : Reg) (rm : RM) : Statement (.orRvRmv r rm) := holds _
theorem orAlIb (ib : Byte) : Statement (.orAlIb ib) := holds _
theorem orEaxIz (iz : Word) : Statement (.orEaxIz iz) := holds _
theorem adcRm8R8 (rm : RM) (r : Reg) : Statement (.adcRm8R8 rm r) := holds _
theorem adcRmvRv (rm : RM) (r : Reg) : Statement (.adcRmvRv rm r) := holds _
theorem adcR8Rm8 (r : Reg) (rm : RM) : Statement (.adcR8Rm8 r rm) := holds _
theorem adcRvRmv (r : Reg) (rm : RM) : Statement (.adcRvRmv r rm) := holds _
theorem adcAlIb (ib : Byte) : Statement (.adcAlIb ib) := holds _
theorem adcEaxIz (iz : Word) : Statement (.adcEaxIz iz) := holds _
theorem sbbRm8R8 (rm : RM) (r : Reg) : Statement (.sbbRm8R8 rm r) := holds _
theorem sbbRmvRv (rm : RM) (r : Reg) : Statement (.sbbRmvRv rm r) := holds _
theorem sbbR8Rm8 (r : Reg) (rm : RM) : Statement (.sbbR8Rm8 r rm) := holds _
theorem sbbRvRmv (r : Reg) (rm : RM) : Statement (.sbbRvRmv r rm) := holds _
theorem sbbAlIb (ib : Byte) : Statement (.sbbAlIb ib) := holds _
theorem sbbEaxIz (iz : Word) : Statement (.sbbEaxIz iz) := holds _
theorem andRm8R8 (rm : RM) (r : Reg) : Statement (.andRm8R8 rm r) := holds _
theorem andRmvRv (rm : RM) (r : Reg) : Statement (.andRmvRv rm r) := holds _
theorem andR8Rm8 (r : Reg) (rm : RM) : Statement (.andR8Rm8 r rm) := holds _
theorem andRvRmv (r : Reg) (rm : RM) : Statement (.andRvRmv r rm) := holds _
theorem andAlIb (ib : Byte) : Statement (.andAlIb ib) := holds _
theorem andEaxIz (iz : Word) : Statement (.andEaxIz iz) := holds _
theorem subRm8R8 (rm : RM) (r : Reg) : Statement (.subRm8R8 rm r) := holds _
theorem subRmvRv (rm : RM) (r : Reg) : Statement (.subRmvRv rm r) := holds _
theorem subR8Rm8 (r : Reg) (rm : RM) : Statement (.subR8Rm8 r rm) := holds _
theorem subRvRmv (r : Reg) (rm : RM) : Statement (.subRvRmv r rm) := holds _
theorem subAlIb (ib : Byte) : Statement (.subAlIb ib) := holds _
theorem subEaxIz (iz : Word) : Statement (.subEaxIz iz) := holds _
theorem xorRm8R8 (rm : RM) (r : Reg) : Statement (.xorRm8R8 rm r) := holds _
theorem xorRmvRv (rm : RM) (r : Reg) : Statement (.xorRmvRv rm r) := holds _
theorem xorR8Rm8 (r : Reg) (rm : RM) : Statement (.xorR8Rm8 r rm) := holds _
theorem xorRvRmv (r : Reg) (rm : RM) : Statement (.xorRvRmv r rm) := holds _
theorem xorAlIb (ib : Byte) : Statement (.xorAlIb ib) := holds _
theorem xorEaxIz (iz : Word) : Statement (.xorEaxIz iz) := holds _
theorem cmpRm8R8 (rm : RM) (r : Reg) : Statement (.cmpRm8R8 rm r) := holds _
theorem cmpRmvRv (rm : RM) (r : Reg) : Statement (.cmpRmvRv rm r) := holds _
theorem cmpR8Rm8 (r : Reg) (rm : RM) : Statement (.cmpR8Rm8 r rm) := holds _
theorem cmpRvRmv (r : Reg) (rm : RM) : Statement (.cmpRvRmv r rm) := holds _
theorem cmpAlIb (ib : Byte) : Statement (.cmpAlIb ib) := holds _
theorem cmpEaxIz (iz : Word) : Statement (.cmpEaxIz iz) := holds _
theorem addRm8Ib (rm : RM) (ib : Byte) : Statement (.addRm8Ib rm ib) := holds _
theorem addRmvIz (rm : RM) (iz : Word) : Statement (.addRmvIz rm iz) := holds _
theorem addRmvIbs (rm : RM) (ib : Byte) : Statement (.addRmvIbs rm ib) := holds _
theorem orRm8Ib (rm : RM) (ib : Byte) : Statement (.orRm8Ib rm ib) := holds _
theorem orRmvIz (rm : RM) (iz : Word) : Statement (.orRmvIz rm iz) := holds _
theorem orRmvIbs (rm : RM) (ib : Byte) : Statement (.orRmvIbs rm ib) := holds _
theorem adcRm8Ib (rm : RM) (ib : Byte) : Statement (.adcRm8Ib rm ib) := holds _
theorem adcRmvIz (rm : RM) (iz : Word) : Statement (.adcRmvIz rm iz) := holds _
theorem adcRmvIbs (rm : RM) (ib : Byte) : Statement (.adcRmvIbs rm ib) := holds _
theorem sbbRm8Ib (rm : RM) (ib : Byte) : Statement (.sbbRm8Ib rm ib) := holds _
theorem sbbRmvIz (rm : RM) (iz : Word) : Statement (.sbbRmvIz rm iz) := holds _
theorem sbbRmvIbs (rm : RM) (ib : Byte) : Statement (.sbbRmvIbs rm ib) := holds _
theorem andRm8Ib (rm : RM) (ib : Byte) : Statement (.andRm8Ib rm ib) := holds _
theorem andRmvIz (rm : RM) (iz : Word) : Statement (.andRmvIz rm iz) := holds _
theorem andRmvIbs (rm : RM) (ib : Byte) : Statement (.andRmvIbs rm ib) := holds _
theorem subRm8Ib (rm : RM) (ib : Byte) : Statement (.subRm8Ib rm ib) := holds _
theorem subRmvIz (rm : RM) (iz : Word) : Statement (.subRmvIz rm iz) := holds _
theorem subRmvIbs (rm : RM) (ib : Byte) : Statement (.subRmvIbs rm ib) := holds _
theorem xorRm8Ib (rm : RM) (ib : Byte) : Statement (.xorRm8Ib rm ib) := holds _
theorem xorRmvIz (rm : RM) (iz : Word) : Statement (.xorRmvIz rm iz) := holds _
theorem xorRmvIbs (rm : RM) (ib : Byte) : Statement (.xorRmvIbs rm ib) := holds _
theorem cmpRm8Ib (rm : RM) (ib : Byte) : Statement (.cmpRm8Ib rm ib) := holds _
theorem cmpRmvIz (rm : RM) (iz : Word) : Statement (.cmpRmvIz rm iz) := holds _
theorem cmpRmvIbs (rm : RM) (ib : Byte) : Statement (.cmpRmvIbs rm ib) := holds _
theorem pushEs : Statement .pushEs := holds _
theorem popEs : Statement .popEs := holds _
theorem pushCs : Statement .pushCs := holds _
theorem pushSs : Statement .pushSs := holds _
theorem popSs : Statement .popSs := holds _
theorem pushDs : Statement .pushDs := holds _
theorem popDs : Statement .popDs := holds _
theorem pushFs : Statement .pushFs := holds _
theorem popFs : Statement .popFs := holds _
theorem pushGs : Statement .pushGs := holds _
theorem popGs : Statement .popGs := holds _
theorem incRv (r : Reg) : Statement (.incRv r) := holds _
theorem decRv (r : Reg) : Statement (.decRv r) := holds _
theorem pushRv (r : Reg) : Statement (.pushRv r) := holds _
theorem popRv (r : Reg) : Statement (.popRv r) := holds _
theorem pusha : Statement .pusha := holds _
theorem popa : Statement .popa := holds _
theorem pushIz (iz : Word) : Statement (.pushIz iz) := holds _
theorem imulRvRmvIz (r : Reg) (rm : RM) (iz : Word) : Statement (.imulRvRmvIz r rm iz) := holds _
theorem pushIbs (ib : Byte) : Statement (.pushIbs ib) := holds _
theorem imulRvRmvIbs (r : Reg) (rm : RM) (ib : Byte) : Statement (.imulRvRmvIbs r rm ib) := holds _
theorem insB : Statement .insB := holds _
theorem insV : Statement .insV := holds _
theorem outsB : Statement .outsB := holds _
theorem outsV : Statement .outsV := holds _
theorem jccRel8 (cc : Cond) (rel : Byte) : Statement (.jccRel8 cc rel) := holds _
theorem testRm8R8 (rm : RM) (r : Reg) : Statement (.testRm8R8 rm r) := holds _
theorem testRmvRv (rm : RM) (r : Reg) : Statement (.testRmvRv rm r) := holds _
theorem xchgRm8R8 (rm : RM) (r : Reg) : Statement (.xchgRm8R8 rm r) := holds _
theorem xchgRmvRv (rm : RM) (r : Reg) : Statement (.xchgRmvRv rm r) := holds _
theorem movRm8R8 (rm : RM) (r : Reg) : Statement (.movRm8R8 rm r) := holds _
theorem movRmvRv (rm : RM) (r : Reg) : Statement (.movRmvRv rm r) := holds _
theorem movR8Rm8 (r : Reg) (rm : RM) : Statement (.movR8Rm8 r rm) := holds _
theorem movRvRmv (r : Reg) (rm : RM) : Statement (.movRvRmv r rm) := holds _
theorem movRm16Sreg (rm : RM) (sr : SReg) : Statement (.movRm16Sreg rm sr) := holds _
theorem leaRvM (r : Reg) (m : MemOp) : Statement (.leaRvM r m) := holds _
theorem movSregRm16 (sr : SReg) (rm : RM) : Statement (.movSregRm16 sr rm) := holds _
theorem popRmv (rm : RM) : Statement (.popRmv rm) := holds _
theorem nop : Statement .nop := holds _
theorem xchgEaxEcx : Statement .xchgEaxEcx := holds _
theorem xchgEaxEdx : Statement .xchgEaxEdx := holds _
theorem xchgEaxEbx : Statement .xchgEaxEbx := holds _
theorem xchgEaxEsp : Statement .xchgEaxEsp := holds _
theorem xchgEaxEbp : Statement .xchgEaxEbp := holds _
theorem xchgEaxEsi : Statement .xchgEaxEsi := holds _
theorem xchgEaxEdi : Statement .xchgEaxEdi := holds _
theorem cbw : Statement .cbw := holds _
theorem cwd : Statement .cwd := holds _
theorem callFarPtr (off : Word) (sel : Half) : Statement (.callFarPtr off sel) := holds _
theorem pushf : Statement .pushf := holds _
theorem popf : Statement .popf := holds _
theorem sahf : Statement .sahf := holds _
theorem lahf : Statement .lahf := holds _
theorem movAlMoffs8 (off : Word) : Statement (.movAlMoffs8 off) := holds _
theorem movEaxMoffsv (off : Word) : Statement (.movEaxMoffsv off) := holds _
theorem movMoffs8Al (off : Word) : Statement (.movMoffs8Al off) := holds _
theorem movMoffsvEax (off : Word) : Statement (.movMoffsvEax off) := holds _
theorem movsB : Statement .movsB := holds _
theorem movsV : Statement .movsV := holds _
theorem cmpsB : Statement .cmpsB := holds _
theorem cmpsV : Statement .cmpsV := holds _
theorem stosB : Statement .stosB := holds _
theorem stosV : Statement .stosV := holds _
theorem lodsB : Statement .lodsB := holds _
theorem lodsV : Statement .lodsV := holds _
theorem scasB : Statement .scasB := holds _
theorem scasV : Statement .scasV := holds _
theorem testAlIb (ib : Byte) : Statement (.testAlIb ib) := holds _
theorem testEaxIz (iz : Word) : Statement (.testEaxIz iz) := holds _
theorem movR8Ib (r : Reg) (ib : Byte) : Statement (.movR8Ib r ib) := holds _
theorem movRvIz (r : Reg) (iz : Word) : Statement (.movRvIz r iz) := holds _
theorem rolRm8Ib (rm : RM) (ib : Byte) : Statement (.rolRm8Ib rm ib) := holds _
theorem rorRm8Ib (rm : RM) (ib : Byte) : Statement (.rorRm8Ib rm ib) := holds _
theorem rclRm8Ib (rm : RM) (ib : Byte) : Statement (.rclRm8Ib rm ib) := holds _
theorem rcrRm8Ib (rm : RM) (ib : Byte) : Statement (.rcrRm8Ib rm ib) := holds _
theorem shlRm8Ib (rm : RM) (ib : Byte) : Statement (.shlRm8Ib rm ib) := holds _
theorem shrRm8Ib (rm : RM) (ib : Byte) : Statement (.shrRm8Ib rm ib) := holds _
theorem sarRm8Ib (rm : RM) (ib : Byte) : Statement (.sarRm8Ib rm ib) := holds _
theorem rolRmvIb (rm : RM) (ib : Byte) : Statement (.rolRmvIb rm ib) := holds _
theorem rorRmvIb (rm : RM) (ib : Byte) : Statement (.rorRmvIb rm ib) := holds _
theorem rclRmvIb (rm : RM) (ib : Byte) : Statement (.rclRmvIb rm ib) := holds _
theorem rcrRmvIb (rm : RM) (ib : Byte) : Statement (.rcrRmvIb rm ib) := holds _
theorem shlRmvIb (rm : RM) (ib : Byte) : Statement (.shlRmvIb rm ib) := holds _
theorem shrRmvIb (rm : RM) (ib : Byte) : Statement (.shrRmvIb rm ib) := holds _
theorem sarRmvIb (rm : RM) (ib : Byte) : Statement (.sarRmvIb rm ib) := holds _
theorem rolRm8One (rm : RM) : Statement (.rolRm8One rm) := holds _
theorem rorRm8One (rm : RM) : Statement (.rorRm8One rm) := holds _
theorem rclRm8One (rm : RM) : Statement (.rclRm8One rm) := holds _
theorem rcrRm8One (rm : RM) : Statement (.rcrRm8One rm) := holds _
theorem shlRm8One (rm : RM) : Statement (.shlRm8One rm) := holds _
theorem shrRm8One (rm : RM) : Statement (.shrRm8One rm) := holds _
theorem sarRm8One (rm : RM) : Statement (.sarRm8One rm) := holds _
theorem rolRmvOne (rm : RM) : Statement (.rolRmvOne rm) := holds _
theorem rorRmvOne (rm : RM) : Statement (.rorRmvOne rm) := holds _
theorem rclRmvOne (rm : RM) : Statement (.rclRmvOne rm) := holds _
theorem rcrRmvOne (rm : RM) : Statement (.rcrRmvOne rm) := holds _
theorem shlRmvOne (rm : RM) : Statement (.shlRmvOne rm) := holds _
theorem shrRmvOne (rm : RM) : Statement (.shrRmvOne rm) := holds _
theorem sarRmvOne (rm : RM) : Statement (.sarRmvOne rm) := holds _
theorem rolRm8Cl (rm : RM) : Statement (.rolRm8Cl rm) := holds _
theorem rorRm8Cl (rm : RM) : Statement (.rorRm8Cl rm) := holds _
theorem rclRm8Cl (rm : RM) : Statement (.rclRm8Cl rm) := holds _
theorem rcrRm8Cl (rm : RM) : Statement (.rcrRm8Cl rm) := holds _
theorem shlRm8Cl (rm : RM) : Statement (.shlRm8Cl rm) := holds _
theorem shrRm8Cl (rm : RM) : Statement (.shrRm8Cl rm) := holds _
theorem sarRm8Cl (rm : RM) : Statement (.sarRm8Cl rm) := holds _
theorem rolRmvCl (rm : RM) : Statement (.rolRmvCl rm) := holds _
theorem rorRmvCl (rm : RM) : Statement (.rorRmvCl rm) := holds _
theorem rclRmvCl (rm : RM) : Statement (.rclRmvCl rm) := holds _
theorem rcrRmvCl (rm : RM) : Statement (.rcrRmvCl rm) := holds _
theorem shlRmvCl (rm : RM) : Statement (.shlRmvCl rm) := holds _
theorem shrRmvCl (rm : RM) : Statement (.shrRmvCl rm) := holds _
theorem sarRmvCl (rm : RM) : Statement (.sarRmvCl rm) := holds _
theorem retIw (iw : Half) : Statement (.retIw iw) := holds _
theorem ret : Statement .ret := holds _
theorem lesRvMem (r : Reg) (m : MemOp) : Statement (.lesRvMem r m) := holds _
theorem ldsRvMem (r : Reg) (m : MemOp) : Statement (.ldsRvMem r m) := holds _
theorem movRm8Ib (rm : RM) (ib : Byte) : Statement (.movRm8Ib rm ib) := holds _
theorem movRmvIz (rm : RM) (iz : Word) : Statement (.movRmvIz rm iz) := holds _
theorem leave : Statement .leave := holds _
theorem retfIw (iw : Half) : Statement (.retfIw iw) := holds _
theorem retf : Statement .retf := holds _
theorem int3 : Statement .int3 := holds _
theorem intIb (ib : Byte) : Statement (.intIb ib) := holds _
theorem into : Statement .into := holds _
theorem iret : Statement .iret := holds _
theorem xlat : Statement .xlat := holds _
theorem loopneRel8 (rel : Byte) : Statement (.loopneRel8 rel) := holds _
theorem loopeRel8 (rel : Byte) : Statement (.loopeRel8 rel) := holds _
theorem loopRel8 (rel : Byte) : Statement (.loopRel8 rel) := holds _
theorem jcxzRel8 (rel : Byte) : Statement (.jcxzRel8 rel) := holds _
theorem inAlIb (ib : Byte) : Statement (.inAlIb ib) := holds _
theorem inEaxIb (ib : Byte) : Statement (.inEaxIb ib) := holds _
theorem outIbAl (ib : Byte) : Statement (.outIbAl ib) := holds _
theorem outIbEax (ib : Byte) : Statement (.outIbEax ib) := holds _
theorem callRelz (rel : Word) : Statement (.callRelz rel) := holds _
theorem jmpRelz (rel : Word) : Statement (.jmpRelz rel) := holds _
theorem jmpFarPtr (off : Word) (sel : Half) : Statement (.jmpFarPtr off sel) := holds _
theorem jmpRel8 (rel : Byte) : Statement (.jmpRel8 rel) := holds _
theorem inAlDx : Statement .inAlDx := holds _
theorem inEaxDx : Statement .inEaxDx := holds _
theorem outDxAl : Statement .outDxAl := holds _
theorem outDxEax : Statement .outDxEax := holds _
theorem hlt : Statement .hlt := holds _
theorem cmc : Statement .cmc := holds _
theorem testRm8Ib (rm : RM) (ib : Byte) : Statement (.testRm8Ib rm ib) := holds _
theorem notRm8 (rm : RM) : Statement (.notRm8 rm) := holds _
theorem negRm8 (rm : RM) : Statement (.negRm8 rm) := holds _
theorem mulRm8 (rm : RM) : Statement (.mulRm8 rm) := holds _
theorem imulRm8 (rm : RM) : Statement (.imulRm8 rm) := holds _
theorem divRm8 (rm : RM) : Statement (.divRm8 rm) := holds _
theorem idivRm8 (rm : RM) : Statement (.idivRm8 rm) := holds _
theorem testRmvIz (rm : RM) (iz : Word) : Statement (.testRmvIz rm iz) := holds _
theorem notRmv (rm : RM) : Statement (.notRmv rm) := holds _
theorem negRmv (rm : RM) : Statement (.negRmv rm) := holds _
theorem mulRmv (rm : RM) : Statement (.mulRmv rm) := holds _
theorem imulRmv (rm : RM) : Statement (.imulRmv rm) := holds _
theorem divRmv (rm : RM) : Statement (.divRmv rm) := holds _
theorem idivRmv (rm : RM) : Statement (.idivRmv rm) := holds _
theorem clc : Statement .clc := holds _
theorem stc : Statement .stc := holds _
theorem cli : Statement .cli := holds _
theorem sti : Statement .sti := holds _
theorem cld : Statement .cld := holds _
theorem std : Statement .std := holds _
theorem incRm8 (rm : RM) : Statement (.incRm8 rm) := holds _
theorem decRm8 (rm : RM) : Statement (.decRm8 rm) := holds _
theorem incRmv (rm : RM) : Statement (.incRmv rm) := holds _
theorem decRmv (rm : RM) : Statement (.decRmv rm) := holds _
theorem callRmv (rm : RM) : Statement (.callRmv rm) := holds _
theorem callFarMem (m : MemOp) : Statement (.callFarMem m) := holds _
theorem jmpRmv (rm : RM) : Statement (.jmpRmv rm) := holds _
theorem jmpFarMem (m : MemOp) : Statement (.jmpFarMem m) := holds _
theorem pushRmv (rm : RM) : Statement (.pushRmv rm) := holds _
theorem sldtRm16 (rm : RM) : Statement (.sldtRm16 rm) := holds _
theorem strRm16 (rm : RM) : Statement (.strRm16 rm) := holds _
theorem lldtRm16 (rm : RM) : Statement (.lldtRm16 rm) := holds _
theorem ltrRm16 (rm : RM) : Statement (.ltrRm16 rm) := holds _
theorem sgdtM (m : MemOp) : Statement (.sgdtM m) := holds _
theorem sidtM (m : MemOp) : Statement (.sidtM m) := holds _
theorem lgdtM (m : MemOp) : Statement (.lgdtM m) := holds _
theorem lidtM (m : MemOp) : Statement (.lidtM m) := holds _
theorem smswRm16 (rm : RM) : Statement (.smswRm16 rm) := holds _
theorem lmswRm16 (rm : RM) : Statement (.lmswRm16 rm) := holds _
theorem clts : Statement .clts := holds _
theorem movR32Cr (md : BitVec 2) (r : Reg) (k : CReg) : Statement (.movR32Cr md r k) := holds _
theorem movR32Dr (md : BitVec 2) (r : Reg) (k : DReg) : Statement (.movR32Dr md r k) := holds _
theorem movCrR32 (md : BitVec 2) (k : CReg) (r : Reg) : Statement (.movCrR32 md k r) := holds _
theorem movDrR32 (md : BitVec 2) (k : DReg) (r : Reg) : Statement (.movDrR32 md k r) := holds _
theorem jccRelz (cc : Cond) (rel : Word) : Statement (.jccRelz cc rel) := holds _
theorem setccRm8 (cc : Cond) (ig : BitVec 3) (rm : RM) : Statement (.setccRm8 cc ig rm) := holds _
theorem shldRmvRvIb (rm : RM) (r : Reg) (ib : Byte) : Statement (.shldRmvRvIb rm r ib) := holds _
theorem shldRmvRvCl (rm : RM) (r : Reg) : Statement (.shldRmvRvCl rm r) := holds _
theorem shrdRmvRvIb (rm : RM) (r : Reg) (ib : Byte) : Statement (.shrdRmvRvIb rm r ib) := holds _
theorem shrdRmvRvCl (rm : RM) (r : Reg) : Statement (.shrdRmvRvCl rm r) := holds _
theorem imulRvRmv (r : Reg) (rm : RM) : Statement (.imulRvRmv r rm) := holds _
theorem lssRvMem (r : Reg) (m : MemOp) : Statement (.lssRvMem r m) := holds _
theorem lfsRvMem (r : Reg) (m : MemOp) : Statement (.lfsRvMem r m) := holds _
theorem lgsRvMem (r : Reg) (m : MemOp) : Statement (.lgsRvMem r m) := holds _
theorem movzxRvRm8 (r : Reg) (rm : RM) : Statement (.movzxRvRm8 r rm) := holds _
theorem movzxRvRm16 (r : Reg) (rm : RM) : Statement (.movzxRvRm16 r rm) := holds _
theorem movsxRvRm8 (r : Reg) (rm : RM) : Statement (.movsxRvRm8 r rm) := holds _
theorem movsxRvRm16 (r : Reg) (rm : RM) : Statement (.movsxRvRm16 r rm) := holds _

end Sys2Proof.Laws.Length
end

