-- ==== Sys2Proof/Laws/Stops.lean ====
section
/-! SUPPORT. How a step stops the run and what it leaves (00_scope R8, R16; 60_exceptions R496, R508): what each shared
operation can leave, said once, and the walk that does not allow an access. -/

namespace Sys2Proof.Machine

/-! ### The fields at a boundary and in a latched state -/

@[simp] theorem State.atBoundary_regs (s : State) : s.atBoundary.regs = s.regs := rfl
@[simp] theorem State.atBoundary_eip (s : State) : s.atBoundary.eip = s.eip := rfl
@[simp] theorem State.atBoundary_eflags (s : State) : s.atBoundary.eflags = s.eflags := rfl
@[simp] theorem State.atBoundary_segs (s : State) : s.atBoundary.segs = s.segs := rfl
@[simp] theorem State.atBoundary_gdtr (s : State) : s.atBoundary.gdtr = s.gdtr := rfl
@[simp] theorem State.atBoundary_idtr (s : State) : s.atBoundary.idtr = s.idtr := rfl
@[simp] theorem State.atBoundary_ldtr (s : State) : s.atBoundary.ldtr = s.ldtr := rfl
@[simp] theorem State.atBoundary_tr (s : State) : s.atBoundary.tr = s.tr := rfl
@[simp] theorem State.atBoundary_cr0 (s : State) : s.atBoundary.cr0 = s.cr0 := rfl
@[simp] theorem State.atBoundary_cr2 (s : State) : s.atBoundary.cr2 = s.cr2 := rfl
@[simp] theorem State.atBoundary_cr3 (s : State) : s.atBoundary.cr3 = s.cr3 := rfl
@[simp] theorem State.atBoundary_dr (s : State) : s.atBoundary.dr = s.dr := rfl
@[simp] theorem State.atBoundary_activity (s : State) : s.atBoundary.activity = s.activity := rfl
@[simp] theorem State.atBoundary_pendingIrq (s : State) : s.atBoundary.pendingIrq = s.pendingIrq := rfl
@[simp] theorem State.atBoundary_depth (s : State) : s.atBoundary.depth = s.depth := rfl
@[simp] theorem State.atBoundary_fatal (s : State) : s.atBoundary.fatal = s.fatal := rfl
@[simp] theorem State.atBoundary_mem (s : State) : s.atBoundary.mem = s.mem := rfl
@[simp] theorem State.atBoundary_draws (s : State) : s.atBoundary.draws = s.draws := rfl
@[simp] theorem State.atBoundary_params (s : State) : s.atBoundary.params = s.params := rfl
@[simp] theorem State.atBoundary_events (s : State) : s.atBoundary.events = s.events := rfl
@[simp] theorem State.atBoundary_tfAtStart (s : State) : s.atBoundary.tfAtStart = false := rfl
@[simp] theorem State.atBoundary_ctx (s : State) : s.atBoundary.ctx = Ctx.clear := rfl

@[simp] theorem State.latch_regs (s : State) (r : Fatal) : (s.latch r).regs = s.regs := rfl
@[simp] theorem State.latch_eip (s : State) (r : Fatal) : (s.latch r).eip = s.eip := rfl
@[simp] theorem State.latch_eflags (s : State) (r : Fatal) : (s.latch r).eflags = s.eflags := rfl
@[simp] theorem State.latch_segs (s : State) (r : Fatal) : (s.latch r).segs = s.segs := rfl
@[simp] theorem State.latch_gdtr (s : State) (r : Fatal) : (s.latch r).gdtr = s.gdtr := rfl
@[simp] theorem State.latch_idtr (s : State) (r : Fatal) : (s.latch r).idtr = s.idtr := rfl
@[simp] theorem State.latch_ldtr (s : State) (r : Fatal) : (s.latch r).ldtr = s.ldtr := rfl
@[simp] theorem State.latch_tr (s : State) (r : Fatal) : (s.latch r).tr = s.tr := rfl
@[simp] theorem State.latch_cr0 (s : State) (r : Fatal) : (s.latch r).cr0 = s.cr0 := rfl
@[simp] theorem State.latch_cr2 (s : State) (r : Fatal) : (s.latch r).cr2 = s.cr2 := rfl
@[simp] theorem State.latch_cr3 (s : State) (r : Fatal) : (s.latch r).cr3 = s.cr3 := rfl
@[simp] theorem State.latch_dr (s : State) (r : Fatal) : (s.latch r).dr = s.dr := rfl
@[simp] theorem State.latch_activity (s : State) (r : Fatal) : (s.latch r).activity = s.activity := rfl
@[simp] theorem State.latch_pendingIrq (s : State) (r : Fatal) : (s.latch r).pendingIrq = s.pendingIrq := rfl
@[simp] theorem State.latch_tfAtStart (s : State) (r : Fatal) : (s.latch r).tfAtStart = s.tfAtStart := rfl
@[simp] theorem State.latch_depth (s : State) (r : Fatal) : (s.latch r).depth = s.depth := rfl
@[simp] theorem State.latch_ctx (s : State) (r : Fatal) : (s.latch r).ctx = s.ctx := rfl
@[simp] theorem State.latch_mem (s : State) (r : Fatal) : (s.latch r).mem = s.mem := rfl
@[simp] theorem State.latch_draws (s : State) (r : Fatal) : (s.latch r).draws = s.draws := rfl
@[simp] theorem State.latch_params (s : State) (r : Fatal) : (s.latch r).params = s.params := rfl
@[simp] theorem State.latch_events (s : State) (r : Fatal) : (s.latch r).events = s.events := rfl
@[simp] theorem State.latch_fatal (s : State) (r : Fatal) : (s.latch r).fatal = some r := rfl

/-! ### The state a stop leaves -/

@[simp] theorem stopLeft_abortOutcome (a : Abort) (s : State) : stopLeft (abortOutcome a s) = some s := by
  cases a <;> rfl

@[simp] theorem stopLeft_closeStep (x : Step) : stopLeft (closeStep x) = (stopLeft x).map State.atBoundary := by
  rcases x with _ | ⟨_ | _⟩ | ⟨_ | _ | _⟩ <;> rfl

@[simp] theorem State.withCr2_cr2 (s : State) (v : Option Word) : (s.withCr2 v).cr2 = v.getD s.cr2 := by
  cases v <;> rfl

/-- The state that keeps the CR2 of a page fault, as one record update. -/
theorem State.withCr2_eq (s : State) (v : Option Word) : s.withCr2 v = { s with cr2 := v.getD s.cr2 } := by
  cases v <;> rfl

theorem deliverNested_left {s u : State} {r : Raised} {ret : Word} (h : stopLeft (deliverNested r ret s) = some u) :
    u = { s with cr2 := u.cr2, depth := 0 } := by
  simp only [deliverNested, State.withCr2_eq] at h
  split at h
  · cases h
  · rw [stopLeft_abortOutcome] at h; cases h; rfl
  · cases h; rfl

/-- A delivery that ends the run leaves the state before it, with the CR2 of a page fault kept (60_exceptions R508). -/
theorem deliverEvent_left {s u : State} {vec : Byte} {src : Source} {err : Option Half} {ret : Word}
    (h : stopLeft (deliverEvent vec src err ret s) = some u) : u = { s with cr2 := u.cr2, depth := 0 } := by
  simp only [deliverEvent] at h
  split at h
  · cases h
  · rw [stopLeft_abortOutcome] at h; cases h; rfl
  · exact deliverNested_left h

theorem settle_left {s u : State} {ret : Word} {r : Except Stop (Unit × State)}
    (h : stopLeft (settle s ret r) = some u) : u = { s with cr2 := u.cr2, depth := 0 } ∨ u = s := by
  unfold settle at h
  split at h
  · cases h
  · rw [stopLeft_abortOutcome] at h; cases h; exact .inr rfl
  · refine .inl ?_
    have e := deliverEvent_left h
    rw [State.withCr2_eq] at e
    exact e

/-- An instruction that ends the run leaves the state before it, with the CR2 of a page fault kept (00_scope R16). -/
theorem runInstr_left {s u : State} {body : Exec Unit} (hd : s.depth = 0) (h : stopLeft (runInstr body s) = some u) :
    u = { s with cr2 := u.cr2 } := by
  cases s
  cases hd
  rcases settle_left h with e | rfl
  · exact e
  · rfl

theorem seqInstr_left {s u : State} {body : Exec Unit} (hd : s.depth = 0) (h : stopLeft (seqInstr body s) = some u) :
    u = { s with cr2 := u.cr2 } :=
  runInstr_left hd h

/-- A single-step trap that ends the run leaves what its instruction left, or the committed instruction
(60_exceptions R496). -/
theorem trapStep_left {x : Step} {u : State} (h : stopLeft (trapStep x) = some u) :
    stopLeft x = some u ∨ ∃ t, x = .next t ∧ u = { t with cr2 := u.cr2, depth := 0 } := by
  rcases x with t | f | r
  · simp only [trapStep] at h
    split at h
    · exact .inr ⟨t, rfl, deliverEvent_left h⟩
    · cases h
  · exact .inl h
  · exact .inl h

/-- A step that ends the run in a state ends the iteration there, with a reason latched (10_state R56). -/
theorem iterate_stop {s u : State} (h : stopLeft (step s) = some u) : ∃ r, s.iterate = (u.latch r, some r) := by
  unfold State.iterate
  rcases hs : step s with _ | ⟨_ | _⟩ | ⟨_ | _ | _⟩ <;> rw [hs] at h <;> cases h <;> exact ⟨_, rfl⟩

theorem iterate_next {s t : State} (h : step s = .next t) : s.iterate = (t, none) := by
  simp [State.iterate, h]

/-- A latched reason ends every run at once, with nothing changed (00_scope R8). -/
theorem runBudget_latched {s : State} {r : Fatal} (h : s.fatal = some r) : ∀ k, s.runBudget k = (s, some r)
  | 0 => by simp [State.runBudget, h]
  | k + 1 => by
    have e : step s = .refused (.fatalLatch r) := by simp [step, iteration, h]
    simp [State.runBudget, State.iterate, e]

/-! ### A walk that does not allow an access -/

theorem State.entry_none {s : State} {a : Word} (h : s.entry a = none) :
    memRead a 4 s = .error (.fatal .physicalOutOfRange) := by
  have hr : s.inRam (addrs a 4) = false := by
    simp only [State.entry] at h
    split at h
    · cases h
    · exact Bool.eq_false_iff.2 ‹_›
  have key : ∀ as : List Word, s.inRam as = false → physReads as s = .error (.fatal .physicalOutOfRange) := by
    intro as
    induction as with
    | nil => intro h; cases h
    | cons a as ih =>
      intro h
      simp only [physReads, physRead, bind_run, get_run]
      by_cases ha : a.toNat < s.params.memSize
      · have h2 : s.inRam as = false := by simpa [State.inRam, ha] using h
        simp [ha, ih h2]
      · simp [ha]
  simp [memRead, map_run, key _ hr]

/-- Translate where the access may not be made (20_memory R130 to R133). -/
theorem translate_blocked {s : State} {acc : Access} {user : Bool} {lin : Word}
    (hp : s.phys acc user lin = none) : translate acc user lin s = .error (s.walkStop acc user lin) := by
  unfold State.phys at hp
  unfold State.walkStop State.walkFault translate
  simp only [bind_run, get_run]
  split at hp
  · next hg =>
    simp only [hg, if_true, bind_run]
    cases h1 : s.entry ((s.cr3 &&& 0xFFFFF000#32) + (lin >>> 22) * 4) with
    | none => rw [State.entry_none h1]; rfl
    | some pde =>
      obtain ⟨k1, e1, rfl⟩ := State.entry_some h1
      simp only [h1, Option.bind_some] at hp
      simp only [e1, Option.bind_some]
      split at hp
      · next hpde =>
        simp only [hpde, check_true, if_true]
        cases h2 : s.entry ((BitVec.ofNat 32 k1 &&& 0xFFFFF000#32) + ((lin >>> 12) &&& 0x3FF) * 4) with
        | none => rw [State.entry_none h2]; rfl
        | some pte =>
          obtain ⟨k2, e2, rfl⟩ := State.entry_some h2
          simp only [h2, Option.bind_some] at hp
          simp only [e2, Option.bind_some]
          cases h3 : (BitVec.ofNat 32 k2).getLsbD 0
          · rfl
          · cases h4 : permitted s.params.supervisorWriteProtect (BitVec.ofNat 32 k1) (BitVec.ofNat 32 k2) acc user
            · rfl
            · rw [h3, h4] at hp; cases hp
      · next hpde =>
        rw [Bool.eq_false_iff.2 hpde]; rfl
  · cases hp

end Sys2Proof.Machine
end

