-- ==== Sys2Proof/Tests/Slice0.lean ====
section
/-! SUPPORT. Tests: ill-formed terms that WellFormed refuses, words written out from the encoding tables, single steps with
the results of spec/95_test_vectors.md or of the rules by hand, and states that meet the hypotheses of every obligation. -/

set_option Elab.async false
set_option maxRecDepth 100000

namespace Sys2Proof.Tests

open Sys2Proof.Machine

/-! ### States -/

/-- Bytes at consecutive addresses. -/
def spread (a : Nat) : List Byte → List (Nat × Byte)
  | [] => []
  | b :: bs => (a, b) :: spread (a + 1) bs

/-- A state with bytes stored. -/
def put (s : State) (a : Nat) (bs : List Byte) : State :=
  { s with mem := loadBytes (spread a bs) s.mem }

/-- Several stores. -/
def puts (s : State) : List (Nat × List Byte) → State
  | [] => s
  | c :: cs => puts (put s c.1 c.2) cs

/-- An instruction at CS:EIP. -/
def code (s : State) (bs : List Byte) : State :=
  put s (s.segs.cs.base + s.eip).toNat bs

/-- What holds of the next state of an outcome. -/
def holdsAfter (o : Step) (p : State → Bool) : Bool :=
  match o with
  | .next t => p t
  | .fault _ => false
  | .refused _ => false

/-- What holds after one step over an instruction placed at CS:EIP. -/
def after (s : State) (mem : List (Nat × List Byte)) (bs : List Byte) (p : State → Bool) : Bool :=
  holdsAfter (step (code (puts s mem) bs)) p

/-- The six status flags. -/
def status (s : State) : Word :=
  s.eflags &&& 0x8D5

/-- Bytes of physical memory. -/
def bytes (s : State) (a : Nat) : Nat → List Byte
  | 0 => []
  | n + 1 => Memory.read s.mem a :: bytes s (a + 1) n

/-- A real-mode segment at 0x0100. -/
def realSeg : Segment :=
  realSegment resetSegment 0x0100

/-- The start state of spec/95_test_vectors.md: real mode, CS = DS = ES = SS = 0x0100, SP = 0x0200. -/
def start : State :=
  { State.reset with
    regs := { resetRegs with esp := 0x200 }
    segs := { State.reset.segs with es := realSeg, cs := realSeg, ss := realSeg, ds := realSeg } }

/-- A flat data segment. -/
def flatData (sel : Half) (lvl : BitVec 2) : Segment :=
  ⟨sel, 0, 0xFFFFFFFF, ⟨3, true, lvl, true, true, true⟩, true⟩

/-- A flat code segment with a default size. -/
def flatCode (sel : Half) (lvl : BitVec 2) (db : Bool) : Segment :=
  ⟨sel, 0, 0xFFFFFFFF, ⟨11, true, lvl, true, db, true⟩, true⟩

/-- A GDT at 0x2000: code and data of level 0, an LDT, a TSS, code and data of level 3; an IDT at 0x3000: 16-bit gates for
vectors 3, 13, 14 and a 32-bit one for 0x20; a TSS at 0x4000 with the stack of level 0. -/
def tables : List (Nat × List Byte) :=
  [(0x2008, [0xFF, 0xFF, 0, 0, 0, 0x9A, 0xCF, 0]), (0x2010, [0xFF, 0xFF, 0, 0, 0, 0x92, 0xCF, 0]),
    (0x2018, [0xFF, 0, 0, 0x30, 0, 0x82, 0, 0]), (0x2020, [0x67, 0, 0, 0x40, 0, 0x89, 0, 0]),
    (0x2028, [0xFF, 0xFF, 0, 0, 0, 0xFA, 0xCF, 0]), (0x2030, [0xFF, 0xFF, 0, 0, 0, 0xF2, 0xCF, 0]),
    (0x3018, [0, 0x60, 8, 0, 0, 0xE6, 0, 0]), (0x3068, [0, 0x50, 8, 0, 0, 0x86, 0, 0]),
    (0x3070, [0, 0x70, 8, 0, 0, 0x86, 0, 0]), (0x3100, [0, 0x40, 8, 0, 0, 0x8E, 0, 0]),
    (0x4004, [0, 0x90, 0, 0, 0x10, 0])]

/-- Protected mode, level 0, with a default size of the code segment, flat segments, ESP 0x8000, EIP 0x1000. -/
def protAt (sel data : Half) (lvl : BitVec 2) (db : Bool) : State :=
  puts
    { State.reset with
      regs := { resetRegs with esp := 0x8000 }
      eip := 0x1000
      segs := ⟨flatData data lvl, flatCode sel lvl db, flatData data lvl, flatData data lvl, flatData data lvl,
        flatData data lvl⟩
      gdtr := { base := 0x2000, limit := 0x7F }
      idtr := { base := 0x3000, limit := 0x7FF }
      tr := { sel := 0x20, base := 0x4000, limit := 0x67, valid := true, is32 := true }
      cr0 := 1 }
    tables

/-- Protected mode at level 0, 32-bit code. -/
def prot0 : State :=
  protAt 0x08 0x10 0 true

/-- Protected mode at level 3, 32-bit code. -/
def prot3 : State :=
  protAt 0x2B 0x33 3 true

/-- Protected mode with paging: the directory at 0xD000, its first table at 0xE000, where pages 0 to 4, 7, 8 and 11 map to
themselves, page 5 is absent and page 6 maps to 0xA000. -/
def pagedAt (s : State) : State :=
  puts { s with cr0 := 0x80000001, cr3 := 0xD000, regs := { s.regs with esp := 0xC000 } }
    [(0xD000, [0x07, 0xE0, 0, 0]), (0xE000, [0x07, 0, 0, 0, 0x07, 0x10, 0, 0, 0x07, 0x20, 0, 0, 0x07, 0x30, 0, 0]),
      (0xE010, [0x07, 0x40, 0, 0, 0x06, 0x50, 0, 0, 0x07, 0xA0, 0, 0, 0x07, 0x70, 0, 0, 0x07, 0x80, 0, 0]),
      (0xE02C, [0x07, 0xB0, 0, 0])]

/-- Paging at level 0. -/
def paged0 : State :=
  pagedAt prot0

/-! ### Decoding -/

/-- 95_test_vectors 2.1 R168, R180. -/
theorem test_decode_mov_imm16 :
    decode false false [0xB8, 0x34, 0x12] = .ok ⟨[], false, 3⟩ (.movRvIz .eax 0x1234) [] := by decide +kernel

/-- 95_test_vectors 2.1 R168. -/
theorem test_decode_mov_imm32 :
    decode false true [0xB8, 0x34, 0x12, 0x00, 0x00] = .ok ⟨[], true, 5⟩ (.movRvIz .eax 0x1234) [] := by decide +kernel

/-- 95_test_vectors 2.1 R168. -/
theorem test_decode_mov_imm_size_prefix :
    decode false true [0x66, 0xB8, 0x34, 0x12] = .ok ⟨[.opSize], true, 4⟩ (.movRvIz .eax 0x1234) [] := by decide +kernel

/-- 95_test_vectors 2.1 R173. -/
theorem test_decode_mov_disp16 :
    decode false false [0x8B, 0x06, 0x34, 0x12] = .ok ⟨[], false, 4⟩ (.movRvRmv .eax (.mem (.abs16 0x1234))) [] := by decide +kernel

/-- 95_test_vectors 2.1 R174. -/
theorem test_decode_mov_esi :
    decode false true [0x8B, 0x06] = .ok ⟨[], true, 2⟩ (.movRvRmv .eax (.mem (.ind32 .esi .none))) [] := by decide +kernel

/-- 95_test_vectors 2.1 R173. -/
theorem test_decode_mov_bp_disp8 :
    decode false false [0x8B, 0x46, 0x00] = .ok ⟨[], false, 3⟩ (.movRvRmv .eax (.mem (.ind16 .bp (.d8 0)))) [] := by decide +kernel

/-- 95_test_vectors 2.1 R173. -/
theorem test_decode_mov_bp_si :
    decode false false [0x8B, 0x02] = .ok ⟨[], false, 2⟩ (.movRvRmv .eax (.mem (.ind16 .bpSi .none))) [] := by decide +kernel

/-- 95_test_vectors 2.1 R165. -/
theorem test_decode_last_override_wins :
    decode false false [0x2E, 0x36, 0x8B, 0x07] = .ok ⟨[.seg .cs, .seg .ss], false, 4⟩ (.movRvRmv .eax (.mem (.ind16 .bx .none))) [] := by decide +kernel

/-- 95_test_vectors 2.1 R168. -/
theorem test_decode_address_size_prefix :
    decode false false [0x67, 0x8B, 0x03] = .ok ⟨[.addrSize], false, 3⟩ (.movRvRmv .eax (.mem (.ind32 .ebx .none))) [] := by decide +kernel

/-- 95_test_vectors 2.1 R175. -/
theorem test_decode_sib_esp_base :
    decode false true [0x8B, 0x44, 0x24, 0x04] = .ok ⟨[], true, 4⟩ (.movRvRmv .eax (.mem (.sib 0 .esp .esp (.d8 4)))) [] := by decide +kernel

/-- 95_test_vectors 2.1 R175. -/
theorem test_decode_sib_no_base :
    decode false true [0x8B, 0x04, 0x8D, 0x00, 0x10, 0x00, 0x00] = .ok ⟨[], true, 7⟩ (.movRvRmv .eax (.mem (.sibAbs 2 .ecx 0x1000))) [] := by decide +kernel

/-- 95_test_vectors 2.1 R174. -/
theorem test_decode_ebp_disp8 :
    decode false true [0x8B, 0x45, 0x00] = .ok ⟨[], true, 3⟩ (.movRvRmv .eax (.mem (.ind32 .ebp (.d8 0)))) [] := by decide +kernel

/-- 95_test_vectors 2.1 R174. -/
theorem test_decode_disp32 :
    decode false true [0x8B, 0x05, 0x78, 0x56, 0x34, 0x12] = .ok ⟨[], true, 6⟩ (.movRvRmv .eax (.mem (.abs32 0x12345678))) [] := by decide +kernel

/-- 95_test_vectors 2.1 R175. -/
theorem test_decode_sib_index_none :
    decode false true [0x8B, 0x04, 0x64] = .ok ⟨[], true, 3⟩ (.movRvRmv .eax (.mem (.sib 1 .esp .esp .none))) [] := by decide +kernel

/-- 95_test_vectors 2.1 R180. -/
theorem test_decode_add_sign_extended :
    decode false false [0x83, 0xC0, 0xFF] = .ok ⟨[], false, 3⟩ (.addRmvIbs (.reg .eax) 0xFF) [] := by decide +kernel

/-- 95_test_vectors 2.1 R182. -/
theorem test_decode_test_has_immediate :
    decode false false [0xF7, 0xC3, 0x01, 0x00] = .ok ⟨[], false, 4⟩ (.testRmvIz (.reg .ebx) 1) [] := by decide +kernel

/-- 95_test_vectors 2.1 R182. -/
theorem test_decode_not_has_none :
    decode false false [0xF7, 0xD3] = .ok ⟨[], false, 2⟩ (.notRmv (.reg .ebx)) [] := by decide +kernel

/-- 95_test_vectors 2.1 R167. -/
theorem test_decode_rep_nop :
    decode false false [0xF3, 0x90] = .ok ⟨[.rep], false, 2⟩ (.nop) [] := by decide +kernel

/-- 95_test_vectors 2.1 R166. -/
theorem test_decode_lock_add :
    decode false false [0xF0, 0x01, 0x07] = .ok ⟨[.lock], false, 3⟩ (.addRmvRv (.mem (.ind16 .bx .none)) .eax) [] := by decide +kernel

/-- 95_test_vectors 2.2 R245. -/
theorem test_decode_div :
    decode false false [0xF7, 0xF3] = .ok ⟨[], false, 2⟩ (.divRmv (.reg .ebx)) [] := by decide +kernel

/-- 95_test_vectors 2.2 R244. -/
theorem test_decode_imul_three :
    decode false false [0x69, 0xC3, 0x00, 0x10] = .ok ⟨[], false, 4⟩ (.imulRvRmvIz .eax (.reg .ebx) 0x1000) [] := by decide +kernel

/-- 95_test_vectors 2.3 R271. -/
theorem test_decode_shl_cl :
    decode false false [0xD2, 0xE0] = .ok ⟨[], false, 2⟩ (.shlRm8Cl (.reg .eax)) [] := by decide +kernel

/-- 95_test_vectors 2.3 R275. -/
theorem test_decode_shrd :
    decode false false [0x0F, 0xAC, 0xD8, 0x04] = .ok ⟨[], false, 4⟩ (.shrdRmvRvIb (.reg .eax) .ebx 4) [] := by decide +kernel

/-- 95_test_vectors 2.3 R276. -/
theorem test_decode_setl :
    decode false false [0x0F, 0x9C, 0xC0] = .ok ⟨[], false, 3⟩ (.setccRm8 .l 0 (.reg .eax)) [] := by decide +kernel

/-- 95_test_vectors 2.4 R300. -/
theorem test_decode_stosb_wide :
    decode false false [0x67, 0xF3, 0xAA] = .ok ⟨[.addrSize, .rep], false, 3⟩ (.stosB) [] := by decide +kernel

/-- 95_test_vectors 2.4 R321. -/
theorem test_decode_out_dx :
    decode false false [0x66, 0xEF] = .ok ⟨[.opSize], false, 2⟩ (.outDxEax) [] := by decide +kernel

/-- 95_test_vectors 2.5 R333. -/
theorem test_decode_push_r :
    decode false false [0x54] = .ok ⟨[], false, 1⟩ (.pushRv .esp) [] := by decide +kernel

/-- 95_test_vectors 2.5 R338. -/
theorem test_decode_pop_m :
    decode false false [0x8F, 0x06, 0x00, 0x02] = .ok ⟨[], false, 4⟩ (.popRmv (.mem (.abs16 0x200))) [] := by decide +kernel

/-- 95_test_vectors S6 R361. -/
theorem test_decode_lgdt :
    decode false false [0x0F, 0x01, 0x16, 0x00, 0x01] = .ok ⟨[], false, 5⟩ (.lgdtM (.abs16 0x100)) [] := by decide +kernel

/-- 95_test_vectors 2.6 R370. -/
theorem test_decode_mov_cr3 :
    decode false false [0x0F, 0x22, 0xD8] = .ok ⟨[], false, 3⟩ (.movCrR32 3 .cr3 .eax) [] := by decide +kernel

/-- 95_test_vectors 2.6 R384. -/
theorem test_decode_lss :
    decode false false [0x0F, 0xB2, 0x26, 0x00, 0x02] = .ok ⟨[], false, 5⟩ (.lssRvMem .esp (.abs16 0x200)) [] := by decide +kernel

/-- 95_test_vectors 2.6 R365. -/
theorem test_decode_lldt :
    decode true false [0x0F, 0x00, 0xD0] = .ok ⟨[], false, 3⟩ (.lldtRm16 (.reg .eax)) [] := by decide +kernel

/-- 95_test_vectors 2.7 R401. -/
theorem test_decode_moffs :
    decode false false [0x26, 0xA3, 0x00, 0x01] = .ok ⟨[.seg .es], false, 4⟩ (.movMoffsvEax 0x100) [] := by decide +kernel

/-- 95_test_vectors 2.7 R406. -/
theorem test_decode_movsx :
    decode false false [0x66, 0x0F, 0xBF, 0xC3] = .ok ⟨[.opSize], false, 4⟩ (.movsxRvRm16 .eax (.reg .ebx)) [] := by decide +kernel

/-- 95_test_vectors 2.7 R404. -/
theorem test_decode_lea :
    decode false false [0x8D, 0x40, 0x05] = .ok ⟨[], false, 3⟩ (.leaRvM .eax (.ind16 .bxSi (.d8 5))) [] := by decide +kernel

/-- 95_test_vectors 2.8 R433. -/
theorem test_decode_jcc_near :
    decode false false [0x0F, 0x8C, 0x00, 0x01] = .ok ⟨[], false, 4⟩ (.jccRelz .l 0x100) [] := by decide +kernel

/-- 95_test_vectors 2.8 R447. -/
theorem test_decode_call_far :
    decode false false [0x9A, 0x00, 0x00, 0x00, 0x20] = .ok ⟨[], false, 5⟩ (.callFarPtr 0 0x2000) [] := by decide +kernel

/-- 95_test_vectors 2.8 R440. -/
theorem test_decode_ret_imm :
    decode false false [0xC2, 0x04, 0x00] = .ok ⟨[], false, 3⟩ (.retIw 4) [] := by decide +kernel

/-- 95_test_vectors 2.8 R460. -/
theorem test_decode_int :
    decode false false [0xCD, 0x21] = .ok ⟨[], false, 2⟩ (.intIb 0x21) [] := by decide +kernel

/-- 95_test_vectors 2.1 R210. -/
theorem test_reject_no_row : ([[0x27], [0xD4, 0x0A], [0xD9, 0xC0], [0x0F, 0x0B], [0x0F, 0xA2], [0x82, 0xC0, 0x01], [0xF1], [0xD1, 0xF0], [0xF6, 0xC8, 0x01], [0xFE, 0xD0], [0xFF, 0xF8], [0x8F, 0xC8], [0xC6, 0xC8, 0x00]] :
    List (List Byte)).all (fun bs => decode false false bs == .reject .noRow) = true := by decide +kernel

/-- 95_test_vectors 2.1 R211. -/
theorem test_reject_invalid_forms : ([[0x8D, 0xC0], [0xC5, 0xC0], [0xFF, 0xE8], [0xFF, 0xD8], [0x8E, 0xC8], [0x8E, 0xF0], [0x8C, 0xF8], [0x0F, 0x22, 0xC8], [0x0F, 0x20, 0xE0], [0x0F, 0x23, 0xE0], [0x0F, 0x01, 0xD0]] :
    List (List Byte)).all (fun bs => decode false false bs == .reject .invalidForm) = true := by decide +kernel

/-- 95_test_vectors 2.1 R211. -/
theorem test_reject_real_mode : ([[0x0F, 0x00, 0xD0]] :
    List (List Byte)).all (fun bs => decode false false bs == .reject .realModeRow) = true := by decide +kernel

/-- 95_test_vectors 2.1 R166. -/
theorem test_reject_lock : ([[0xF0, 0x01, 0xC0], [0xF0, 0x90]] :
    List (List Byte)).all (fun bs => decode false false bs == .reject .lockNotTaken) = true := by decide +kernel

/-! ### Ill-formed terms -/

/-- The recorded length is wrong. -/
theorem test_wf_length : (Instr.addAlIb 1).lengthOk ⟨[], false, 3⟩ = false ∧ (Instr.addAlIb 1).wf ⟨[], false, 3⟩ = false ∧
    (Instr.addAlIb 1).wf ⟨[], false, 2⟩ = true := by decide

/-- Sixteen bytes are too many, fifteen are not. -/
theorem test_wf_too_long : Instr.nop.shortEnough ⟨List.replicate 15 .opSize, false, 16⟩ = false ∧
    Instr.nop.wf ⟨List.replicate 15 .opSize, false, 16⟩ = false ∧
    Instr.nop.wf ⟨List.replicate 14 .opSize, false, 15⟩ = true := by decide

/-- A 16-bit immediate above 16 bits, a 32-bit address form with 16-bit addressing, BP without a displacement, ESP as a
plain base, a load of CS. -/
theorem test_wf_operands : (Instr.addEaxIz 0x10000).operandsOk ⟨[], false, 3⟩ = false ∧
    (Instr.notRm8 (.mem (.ind32 .eax .none))).operandsOk ⟨[], false, 2⟩ = false ∧
    (Instr.notRm8 (.mem (.ind16 .bp .none))).operandsOk ⟨[], false, 2⟩ = false ∧
    (Instr.notRm8 (.mem (.ind32 .esp .none))).operandsOk ⟨[], true, 2⟩ = false ∧
    (Instr.movSregRm16 .cs (.reg .eax)).operandsOk ⟨[], false, 2⟩ = false ∧
    (Instr.movSregRm16 .cs (.reg .eax)).wf ⟨[], false, 2⟩ = false := by decide

/-- LOCK before a register destination, and before a row that never takes it. -/
theorem test_wf_lock : (Instr.addRmvRv (.reg .eax) .ebx).lockOk ⟨[.lock], false, 3⟩ = false ∧
    Instr.nop.lockOk ⟨[.lock], false, 2⟩ = false ∧ Instr.nop.wf ⟨[.lock], false, 2⟩ = false ∧
    (Instr.addRmvRv (.mem (.ind16 .bx .none)) .ebx).wf ⟨[.lock], false, 3⟩ = true := by decide

/-! ### Flags that are partly undefined: the same for both values of every free bit -/

/-- The mask of the status flags without some of them, for both extremes of the free value. -/
def definedFlags (f : Word → Word → Word) (mask : Word) : List Word :=
  [f 0 2 &&& mask, f 0xFFFFFFFF 2 &&& mask, f 0 0x8D7 &&& mask, f 0xFFFFFFFF 0x8D7 &&& mask]

/-- 95_test_vectors S1: AND gives 0x0F: CF 0, OF 0, ZF 0, SF 0, PF 1, AF undefined. -/
theorem test_logic_flags : definedFlags (fun u fl => logicFlags u (0x0F : Byte) fl) 0x8C5 = [4, 4, 4, 4] := by decide

/-- 95_test_vectors 2.2 R242: the product 0x0100 does not fit a byte: CF 1, OF 1, the others undefined. -/
theorem test_mul_flags : definedFlags (fun u fl => mulFlags u true fl) 0x801 = [0x801, 0x801, 0x801, 0x801] := by decide

/-- 95_test_vectors 2.3 R271: SHL of 0x03 by 7: CF 1, SF 1, ZF 0, PF 0. -/
theorem test_shl_flags : definedFlags (fun u fl => shiftFlags .shl u (0x03 : Byte) 7 fl) 0xC5 = [0x81, 0x81, 0x81, 0x81] := by
  decide

/-- 95_test_vectors 2.3 R271: SHL of 0x40 by 1: CF 0, OF 1, SF 1, ZF 0, PF 0. -/
theorem test_shl_one_flags : definedFlags (fun u fl => shiftFlags .shl u (0x40 : Byte) 1 fl) 0x8C5 =
    [0x880, 0x880, 0x880, 0x880] := by decide

/-- 95_test_vectors 2.3 R272: SHR of 0x8001 by 1: CF 1, OF 1, ZF 0, SF 0, PF 1. -/
theorem test_shr_one_flags : definedFlags (fun u fl => shiftFlags .shr u (0x8001 : Half) 1 fl) 0x8C5 =
    [0x805, 0x805, 0x805, 0x805] := by decide

/-- 95_test_vectors 2.3 R273: SAR of 0x80 by 31: CF 1, SF 1, PF 1. -/
theorem test_sar_flags : definedFlags (fun u fl => shiftFlags .sar u (0x80 : Byte) 31 fl) 0xC5 = [0x85, 0x85, 0x85, 0x85] := by
  decide

/-- 95_test_vectors 2.3 R267: ROL of 0x81 by 8: CF 1, SF ZF AF PF unchanged. -/
theorem test_rol_flags : definedFlags (fun u fl => shiftFlags .rol u (0x81 : Byte) 8 fl) 0xD5 = [1, 1, 0xD5, 0xD5] := by decide

/-- 95_test_vectors 2.3 R274, R275: SHLD and SHRD of 0x1234 with 0xABCD by 4. -/
theorem test_double_shift_flags :
    definedFlags (fun u fl => doubleShiftFlags true u (0x1234 : Half) 0xABCD 4 fl) 0xC5 = [1, 1, 1, 1] ∧
    definedFlags (fun u fl => doubleShiftFlags false u (0x1234 : Half) 0xABCD 4 fl) 0xC5 = [0x80, 0x80, 0x80, 0x80] := by
  decide

/-! ### Single steps -/


/-! ### States that meet the hypotheses of the obligations -/

/-- A prefix context. -/
def under (s : State) (pfx : List Pfx) (big : Bool) (n : Nat) : State :=
  { s with ctx := ⟨pfx, big, n⟩ }

/-- Real mode, 32-bit operands. -/
def wide : State :=
  under start [.opSize] false 3

/-- Protected mode, level 0, 32-bit code. -/
def kernel : State :=
  under prot0 [] true 2

/-- Protected mode, level 3, 32-bit code. -/
def user : State :=
  under prot3 [] true 2

/-- Protected mode with paging, level 0, 32-bit code. -/
def mapped : State :=
  under paged0 [] true 2

/-- A next state is answered. -/
def runs (i : Instr) (s : State) : Bool :=
  holdsAfter (exec i s) fun _ => true

/-- The stop a checked access ends in. -/
def stopped {α : Type} : Except Stop (α × State) → Option Stop
  | .error e => some e
  | .ok _ => none

/-- A memory operand at an absolute offset. -/
def mem16 (off : Half) : RM :=
  .mem (.abs16 off)

/-- ArithmeticRuns, LogicAndUnaryRun: a register, the last byte, word and double word of a segment, flat memory and a
mapped page, read and updated. -/
theorem test_arithmetic_witness :
    (start.canUpdate .b8 (locate start (.reg .esp)) && start.canUpdate .b8 (locate start (mem16 0xFFFF)) &&
      start.canRead .b8 (locate start (mem16 0xFFFF)) && start.canUpdate start.ctx.osz (locate start (mem16 0xFFFE)) &&
      wide.canUpdate wide.ctx.osz (locate wide (mem16 0xFFFC)) && wide.canRead wide.ctx.osz (locate wide (mem16 0xFFFC)) &&
      kernel.canUpdate kernel.ctx.osz (locate kernel (.mem (.abs32 0xFFFC))) &&
      user.canRead user.ctx.osz (locate user (.mem (.abs32 0))) &&
      mapped.canUpdate mapped.ctx.osz (locate mapped (.mem (.abs32 0x6000))) && start.plainWalks) = true := by
  decide +kernel

/-- Beyond the last byte, and on an absent page, the operand is not readable. -/
theorem test_arithmetic_boundary :
    (start.canRead .b16 (locate start (mem16 0xFFFF)) || wide.canRead .b32 (locate wide (mem16 0xFFFD)) ||
      mapped.canRead .b32 (locate mapped (.mem (.abs32 0x5000))) ||
      mapped.canRead .b32 (locate mapped (.mem (.abs32 0x4FFD)))) = false := by
  decide +kernel

/-- MultipliesRun: factors whose product just fits the lower half and just does not. -/
theorem test_multiply_witness :
    let s := { start with regs := { resetRegs with eax := 0x0F, ebx := 0x11, ecx := 0x10 } }
    (s.canRead .b8 (locate s (.reg .ebx)) && s.canRead s.ctx.osz (locate s (.reg .ebx)) &&
      (s.view .b8 .eax).toNat * (s.locValue .b8 (locate s (.reg .ebx))).toNat == 0xFF &&
      (s.view .b8 .ecx).toNat * (s.locValue .b8 (locate s (.reg .ecx))).toNat == 0x100 &&
      fitsSigned .b8 127 && !fitsSigned .b8 128 && fitsSigned .b8 (-128) && !fitsSigned .b8 (-129)) = true := by
  decide +kernel

/-- DividesRun: a zero divisor; quotients 65535 and 65536 with their remainders; signed quotients 32767, -32768 and 32768. -/
theorem test_divide_witness :
    let s := fun (d e : Word) => { start with regs := { resetRegs with eax := 0xFFFF, edx := e, ebx := d } }
    let l := fun d e => locate (s d e) (.reg .ebx)
    ((s 0 1).canRead .b16 (l 0 1) && (s 0 1).locValue .b16 (l 0 1) == 0 &&
      (accPair .b16 (s 2 1)).toNat == 65535 * 2 + 1 && (accPair .b16 (s 1 1)).toNat == 131071 * 1 + 0 &&
      (accPair .b16 (s 0xFFFF 0xFFFE)).toNat == 65535 * 0xFFFF + 0xFFFE &&
      (accPair .b16 (s 2 0)).toInt == (32767 : Int) * 2 + 1 && (accPair .b16 (s 1 0xFFFF)).toInt == (-1 : Int) * 1 + 0 &&
      (accPair .b16 (s 2 1)).toInt == (65535 : Int) * 2 + 1 &&
      fitsSigned .b16 32767 && !fitsSigned .b16 65535 && fitsSigned .b16 (-32768) && !fitsSigned .b16 32768) = true := by
  decide +kernel

/-- ShiftsRun: counts 0, 1, 31 and 32 of a readable and writable operand; a count that is 0 modulo 32 needs no write. -/
theorem test_shift_witness :
    let s := { start with regs := { resetRegs with ecx := 31 } }
    let k := { kernel with segs := { kernel.segs with ds := { kernel.segs.ds with ar := ⟨1, true, 0, true, true, true⟩ } } }
    (s.canShift .b8 (locate s (mem16 0xFFFF)) 1 && s.canShift .b8 (locate s (.reg .eax)) (s.view .b8 .ecx).toNat &&
      s.canShift s.ctx.osz (locate s (.reg .eax)) 0 && s.canShift s.ctx.osz (locate s (mem16 0)) 17 &&
      k.canShift k.ctx.osz (locate k (.mem (.abs32 0))) 32 && !k.canShift k.ctx.osz (locate k (.mem (.abs32 0))) 1) = true := by
  decide +kernel

/-- StringsRun: an empty count, one element at the last place of the segment, with and without a repeat prefix. -/
theorem test_string_witness :
    let s := fun pfx n => under
      { start with regs := { resetRegs with ecx := n, esi := 0xFFFE, edi := 0xFFFE } } pfx false 2
    ((s [.rep] 0).repeatEmpty && !(s [.rep] 1).repeatEmpty && !(s [] 0).repeatEmpty && (s [.repne] 0x10000).repeatEmpty &&
      (s [] 0).canSource .b16 && (s [] 0).canDestRead .b16 && (s [] 0).canDestWrite .b16 && (s [.rep] 1).canSource .b8 &&
      !(s [.opSize] 1).canSource .b32 && kernel.canSource .b32 && kernel.canDestWrite .b32) = true := by
  decide +kernel

/-- PortsRun, PrivilegeTraps: I/O is allowed in real mode, at level 0 and at level 3 with IOPL 3, and not at level 3 with
IOPL 0. -/
theorem test_port_witness :
    (start.ioPriv && kernel.ioPriv && { user with eflags := 0x3002 }.ioPriv && !user.ioPriv &&
      !{ user with eflags := 0x2002 }.ioPriv && user.plainWalks && !user.repeatEmpty && start.canDestWrite .b8) = true := by
  decide +kernel

/-- PushesAndPopsRun: room for a push and a value to pop, at the ends of the stack segment, and a selector to load. -/
theorem test_stack_witness :
    let s := fun p => { start with regs := { resetRegs with esp := p } }
    ((s 2).canPush 2 && (s 0).canPush 2 && !(s 1).canPush 2 && (s 0xFFFE).canPop 2 && !(s 0xFFFF).canPop 2 &&
      kernel.canPush 4 && kernel.canPop 4 && mapped.canPush 4 && (s 2).locReadable .b16 (locate (s 2) (mem16 0)) &&
      ((s 2).popped 2).locWritable .b16 (locate ((s 2).popped 2) (mem16 0xFFFE)) &&
      ((s 2).popped 2).canLoad .ss 0x1234 && (kernel.popped 4).canLoad .ds 0x10 && (kernel.popped 4).canLoad .ss 0x10 &&
      (kernel.popped 4).canLoad .es 0 && !(kernel.popped 4).canLoad .ss 0 && !(kernel.popped 4).canLoad .ds 0x20 &&
      (kernel.popped 4).canLoad .ds 0x33 && !(user.popped 4).canLoad .ds 0x13) = true := by
  decide +kernel

/-- StackFramesRun: room for the eight registers, with just enough stack and with too little. -/
theorem test_frame_witness :
    let s := fun p => { start with regs := { resetRegs with esp := p, ebp := 0x30 } }
    let vs := fun s : State => [Reg.eax, .ecx, .edx, .ebx, .esp, .ebp, .esi, .edi].map fun r => (s.view s.ctx.osz r).toNat
    ((s 16).canPushes 2 (vs (s 16)) && (s 0xFFF0).canPopList .b16 popaOrder && !(s 15).canPushes 2 (vs (s 15)) &&
      ((s 16).setStackPointer (s 16).regs.ebp).canPop 2 && kernel.canPopList .b32 popaOrder) = true := by
  decide +kernel

/-- PushThenPopRestores: canonical memory, no paging, a destination that is not the stack pointer. -/
theorem test_push_pop_witness :
    (Memory.wf kernel.mem && kernel.plainWalks && !kernel.paging && kernel.canPush kernel.ctx.osz.bytes &&
      start.canPush start.ctx.osz.bytes && Memory.wf start.mem && !start.paging) = true ∧ Reg.edi ≠ Reg.esp := by
  decide +kernel

/-- TableRegistersRun: a readable and a writable operand of six bytes, the LDT and the TSS of the tables, and a null LDT. -/
theorem test_table_witness :
    (start.priv0 && start.readable .ds 0xFFFA 6 && start.writable .ds 0xFFFA 6 && !start.readable .ds 0xFFFB 6 &&
      kernel.priv0 && kernel.pe && kernel.cpl == 0 && kernel.readable .ds 0 6 && kernel.writable .ds 0 6 &&
      kernel.canLdt 0x18 && kernel.canLdt 0 && kernel.canLdt 3 && !kernel.canLdt 0x20 && kernel.canTask 0x20 &&
      !kernel.canTask 0x18 && !kernel.canTask 0) = true := by
  decide +kernel

/-- ControlRegistersRun, PrivilegeTraps: level 0 and real mode may, level 3 may not; CLI and STI follow IOPL. -/
theorem test_privilege_witness :
    (start.priv0 && kernel.priv0 && !user.priv0 && user.plainWalks && kernel.ioPriv && !user.ioPriv &&
      { user with eflags := 0x3002 }.ioPriv && !{ user with eflags := 0x3002 }.priv0 && !start.pe) = true := by
  decide +kernel

/-- SelectorMovesRun: a selector in a register or in memory that can be loaded, a far pointer at the end of a segment. -/
theorem test_selector_witness :
    let k := put { kernel with regs := { kernel.regs with ebx := 0x10 } } 0x100 [1, 2, 3, 4, 0x33, 0]
    (start.canRead .b16 (locate start (mem16 0xFFFE)) && start.canLoad .ss (start.locValue .b16 (locate start (mem16 0xFFFE))) &&
      k.canLoad .ss (k.locValue .b16 (locate k (.reg .ebx))) && k.canLoad .ds (k.locValue .b16 (locate k (.reg .ebx))) &&
      start.readable .ds 0xFFFC (start.ctx.osz.bytes + 2) && !start.readable .ds 0xFFFD (start.ctx.osz.bytes + 2) &&
      k.readable .ds 0x100 (k.ctx.osz.bytes + 2) && farSelector k.ctx.osz (k.loadFrom .ds 0x100 6) == 0x33 &&
      k.canLoad .fs (farSelector k.ctx.osz (k.loadFrom .ds 0x100 6)) && k.canWrite .b16 (locate k (.reg .eax)) &&
      start.canWrite .b16 (locate start (mem16 0xFFFE))) = true := by
  decide +kernel

/-- MovesRun, AccumulatorRuns: readable and writable operands at the end of the segment, at an absolute offset and at the
entry of XLAT. -/
theorem test_move_witness :
    let s := { start with regs := { resetRegs with ebx := 0xFFF0, eax := 0x0F } }
    (s.canWrite .b8 (locate s (mem16 0xFFFF)) && s.canWrite s.ctx.osz (locate s (mem16 0xFFFE)) &&
      s.canRead .b16 (locate s (mem16 0xFFFE)) && s.canRead .b8 (.mem s.sourceSeg 0xFFFF) &&
      s.canRead s.ctx.osz (.mem s.sourceSeg 0xFFFE) && s.canWrite s.ctx.osz (.mem s.sourceSeg 0xFFFE) &&
      s.canUpdate .b8 (locate s (.reg .edi)) &&
      s.canRead .b8 (.mem s.sourceSeg
        (BitVec.ofNat 32 (((s.view s.ctx.asz .ebx).toNat + (s.view .b8 .eax).toNat) % 2 ^ s.ctx.asz.bits)))) = true := by
  decide +kernel

/-- JumpsRun, NearCallsRun: targets at and beyond the last byte of the code segment, taken and not taken, the count of 1
and of 0, and a call and a return with room on the stack. -/
theorem test_jump_witness :
    let s := { start with eip := 0xFFF0, eflags := 0x42, regs := { resetRegs with esp := 2, ecx := 1 }, ctx := ⟨[], false, 2⟩ }
    let k := { kernel with segs := { kernel.segs with cs := { kernel.segs.cs with limit := 0xFFF } } }
    (s.canNear s.ctx.osz (s.nextEip + 0x0D) && s.canNear s.ctx.osz (s.nextEip + 0x0E) && k.canNear k.ctx.osz 0xFFF &&
      !k.canNear k.ctx.osz 0x1000 && condHolds .z s.eflags && !condHolds .nz s.eflags && s.flag .zf &&
      s.view s.ctx.asz .ecx == 1 && s.canPush 2 && s.canPop 2 && s.canNear s.ctx.osz (BitVec.ofNat 32 (s.top 2)) &&
      start.view start.ctx.asz .ecx == 0 && s.locReadable s.ctx.osz (locate s (mem16 0xFFFE)) &&
      s.canNear s.ctx.osz ((s.locValue s.ctx.osz (locate s (mem16 0xFFFE))).setWidth 32)) = true := by
  decide +kernel

/-- A stack of level 0 with a far return to level 3 (EIP, CS, ESP, SS) at 0x8000, and one to level 0 (EIP, CS, EFLAGS) at
0x8100. -/
def leaving : State :=
  puts kernel
    [(0x8000, [0, 0x10, 0, 0, 0x2B, 0, 0, 0, 0, 0x90, 0, 0, 0x33, 0, 0, 0]), (0x8100, [0, 0x10, 0, 0, 8, 0, 0, 0, 2, 2, 0, 0])]

/-- FarTransfersRun: a far target in real mode and in protected mode, its pushes, and a return to the same level and to an
outer one. -/
theorem test_far_witness :
    let s := leaving
    let x := s.popped 4
    let y := x.popped 4
    let o := { s with regs := { s.regs with esp := 0x8100 } }
    (start.canFar .b16 0x1234 0xFFFF && start.canPushReturn 2 && kernel.canFar .b32 0x08 0xFFFFFFFF && kernel.canMark 0x08 &&
      !kernel.canFar .b32 0x10 0 && !kernel.canFar .b32 0x2B 0 && kernel.canPushReturn 4 &&
      (kernel.returnPushed 4).canMark 8 && s.canPop 4 && x.canPop 4 &&
      y.canReturnOut .b32 (BitVec.ofNat 16 (x.top 4)) (BitVec.ofNat 32 (s.top 4)) 0 &&
      y.canFarReturn .b32 (BitVec.ofNat 16 (x.top 4)) (BitVec.ofNat 32 (s.top 4)) 0 &&
      ((o.popped 4).popped 4).canReturn .b32 (BitVec.ofNat 16 ((o.popped 4).top 4)) (BitVec.ofNat 32 (o.top 4)) &&
      start.canFarReturn .b16 0x2000 0xFFFF 4 && kernel.readable .ds 0x8000 6 &&
      start.readable .ds 0xFFFC 4) = true := by
  decide +kernel

/-- InterruptReturnRuns: IRET to the same level and to an outer one, in real mode, with NT set, and with the VM bit set in
the popped flags. -/
theorem test_iret_witness :
    let s := { leaving with regs := { leaving.regs with esp := 0x8100 } }
    let v := put s 0x810A [2]
    let nt := { s with eflags := 0x4002 }
    let out := puts kernel
      [(0x8000, [0, 0x10, 0, 0, 0x2B, 0, 0, 0, 2, 2, 0, 0, 0, 0x90, 0, 0, 0x33, 0, 0, 0])]
    (s.canPop 4 && (s.popped 4).canPop 4 && ((s.popped 4).popped 4).canPop 4 &&
      (((s.popped 4).popped 4).popped 4).canFarReturn .b32 8 0x1000 0 && !s.flag .nt && nt.pe && nt.flag .nt &&
      (BitVec.ofNat 32 (((v.popped 4).popped 4).top 4)).getLsbD 17 &&
      !(BitVec.ofNat 32 (((s.popped 4).popped 4).top 4)).getLsbD 17 && start.canPop 2 &&
      (((start.popped 2).popped 2).popped 2).canFarReturn .b16 0 0 0 && runs .iret s &&
      (((out.popped 4).popped 4).popped 4).canFarReturn .b32 0x2B 0x1000 0) = true := by
  decide +kernel

/-- SoftInterruptsRun: a guest vector that can be delivered in real and protected mode, OF set and clear, and vectors
that the host serves. -/
theorem test_soft_interrupt_witness :
    let s := { start with eflags := 0x802 }
    let h := { start with
      regs := { resetRegs with eax := 0x1600 }
      params := { start.params with emulatedVectors := [0x21], multiplexHandlers := [0x16] } }
    (s.flag .of && !start.flag .of && s.guestVector 4 && s.canDeliver 4 .softInt none s.nextEip &&
      s.canDeliver 255 .softInt none s.nextEip && user.canDeliver 3 .softInt none user.nextEip &&
      !user.canDeliver 0x20 .softInt none user.nextEip && kernel.canDeliver 13 .softInt none kernel.nextEip &&
      !h.guestVector 0x21 && !h.guestVector 0x2F && h.guestVector 0x2E &&
      h.params.multiplexHandlers.contains (h.view .b8 .esp)) = true := by
  decide +kernel

/-- EncodeThenDecode, DecodeThenEncode: well-formed instructions of 1 and of 15 bytes, and the words they come from. -/
theorem test_encoding_witness :
    Instr.nop.wf ⟨[], false, 1⟩ = true ∧ Instr.nop.wf ⟨List.replicate 14 .opSize, false, 15⟩ = true ∧
      (Instr.addRmvIz (.mem (.sib 3 .edi .ebp (.d32 0x80000000))) 0xFFFFFFFF).wf ⟨[.lock], true, 12⟩ = true ∧
      decode false false (List.replicate 14 0x66 ++ [0x90]) = .ok ⟨List.replicate 14 .opSize, false, 15⟩ .nop [] := by
  decide +kernel

/-- EmptySlotsAndInvalidFormsAreRejected: bytes, group slots and register fields of every clause. -/
theorem test_rejection_witness :
    (0x27 : Byte) ∈ ([0x27, 0x2F] : List Byte) ∧
      (0x0B : Byte) ∉ ([0x00, 0x01, 0x06, 0x20, 0x21, 0x22, 0x23, 0xA0, 0xA1, 0xA4, 0xA5, 0xA8, 0xA9, 0xAC, 0xAD, 0xAF,
        0xB2, 0xB4, 0xB5, 0xB6, 0xB7, 0xBE, 0xBF] : List Byte) ∧
      (0x0B : Byte).extractLsb' 4 4 ≠ 8 ∧ (0x0B : Byte).extractLsb' 4 4 ≠ 9 ∧ Pfx.lock ∉ [Pfx.rep, .opSize] ∧
      decode true true ([Pfx.rep, .opSize].map Pfx.byte ++ [0xFF, 0xF8]) = .reject .noRow := by
  decide +kernel

/-- FetchReadsCode: fifteen bytes in bounds, and fetches that stop at the limit, at an absent page and at the end of memory,
each after two bytes. -/
theorem test_fetch_witness :
    let s := { start with eip := 0xFFFE }
    (start.plainWalks &&
      ((List.range 15).all fun j => start.segs.cs.inBounds (start.eip + BitVec.ofNat 32 j) 1 &&
        start.backed .fetch start.user (start.linear .cs (start.eip + BitVec.ofNat 32 j)) 1) &&
      s.segs.cs.inBounds (s.eip + 1) 1 && !s.segs.cs.inBounds (s.eip + 2) 1 && s.fetched.1.length == 2 &&
      mapped.backed .fetch mapped.user (mapped.linear .cs mapped.eip) 1) = true ∧
      (let q := { mapped with eip := 0x4FFE }
       q.plainWalks && (List.range 2).all (fun j => q.segs.cs.inBounds (q.eip + BitVec.ofNat 32 j) 1 &&
          q.backed .fetch q.user (q.linear .cs (q.eip + BitVec.ofNat 32 j)) 1) &&
        q.phys .fetch q.user (q.linear .cs 0x5000) == none && q.fetched.1.length == 2 &&
        q.fetched.2 == .raise ⟨14, some 0, some 0x5000⟩) = true ∧
      (let m := { kernel with params := { kernel.params with memSize := 0x1002 } }
       (List.range 2).all (fun j => m.backed .fetch m.user (m.linear .cs (m.eip + BitVec.ofNat 32 j)) 1) &&
        m.segs.cs.inBounds 0x1002 1 && m.phys .fetch m.user (m.linear .cs 0x1002) == some 0x1002 &&
        m.fetched.1.length == 2 && m.fetched.2 == .fatal .physicalOutOfRange) = true := by
  decide +kernel

/-- StepRunsDecoded: bytes that decode, bytes that are rejected, and bytes that run out at the limit. -/
theorem test_step_witness :
    let s := code start [0x04, 0x01]
    let r := code start [0x0F, 0x0B]
    let e := code { start with eip := 0xFFFF } [0x04]
    (s.fetches && r.fetches && e.fetches) = true ∧ s.decoded = .ok ⟨[], false, 2⟩ (.addAlIb 1) ((s.fetched.1).drop 2) ∧
      r.decoded = .reject .noRow ∧ e.decoded = .short ∧ e.fetched.2 = protection 0 := by
  decide +kernel

/-- BoundaryWithoutFetch: a latched reason, an interrupt to deliver in both modes and one the host serves, a halted core,
and a callback slot in real mode and on a mapped page. -/
theorem test_boundary_witness :
    let i := { start with eflags := 0x202, pendingIrq := [8, 9], activity := .halted }
    let k := { kernel with eflags := 0x202, pendingIrq := [13] }
    let h := { i with params := { i.params with emulatedVectors := [8] } }
    let w := { start with activity := .halted }
    let c := { start with params := { start.params with callbackSlots := [0x1000] } }
    let d := { mapped with eip := 0x6123, params := { mapped.params with callbackSlots := [0xA123] } }
    ({ start with fatal := some .doubleFault }.fatal == some .doubleFault && i.flag .intf && i.fatal == none &&
      !i.params.emulatedVectors.contains 8 &&
      { i with pendingIrq := [9], activity := .running }.canDeliver 8 .external none i.eip &&
      { k with pendingIrq := [] }.canDeliver 13 .external none k.eip && h.params.emulatedVectors.contains 8 &&
      !w.flag .intf && w.activity == .halted && w.fatal == none && c.plainWalks && !c.flag .intf && c.fatal == none &&
      c.activity == .running && c.segs.cs.inBounds c.eip 1 && d.segs.cs.inBounds d.eip 1 && d.depth == 0 &&
      c.phys .fetch c.user (c.linear .cs c.eip) == some 0x1000 && c.params.callbackSlots.contains 0x1000 &&
      d.phys .fetch d.user (d.linear .cs d.eip) == some 0xA123 && d.params.callbackSlots.contains 0xA123) = true := by
  decide +kernel

/-- SingleStepTraps: an instruction that commits with TF set, and one with TF clear; vector 1 can be delivered. -/
theorem test_trap_witness :
    let s := fun f => code { start with eflags := f } [0x90]
    ((s 0x102).fetches && (s 0x102).flag .tf && !(s 2).flag .tf &&
      holdsAfter (exec .nop { s 0x102 with tfAtStart := true, ctx := ⟨[], false, 1⟩ }) (fun t =>
        t.tfAtStart && t.canDeliver 1 .trap none t.eip) &&
      holdsAfter (exec .nop { s 2 with tfAtStart := false, ctx := ⟨[], false, 1⟩ }) (fun t => !t.tfAtStart)) = true ∧
      (s 0x102).decoded = .ok ⟨[], false, 1⟩ .nop ((s 0x102).fetched.1.drop 1) := by
  decide +kernel

/-- StepKeepsInvariant: states with the invariant that take a step, in real mode and in protected mode. -/
theorem test_invariant_witness :
    (start.Inv ∧ (code start [0x04, 0x01]).Inv ∧ (code prot0 [0xF4]).Inv) ∧
      after start [] [0x04, 0x01] (fun t => Memory.wf t.mem) = true ∧
      after prot0 [] [0xF4] (fun t => t.activity == .halted) = true := by
  unfold State.Inv
  decide +kernel

/-- SystemRegistersGuarded: with no handlers, LGDT changes GDTR and NOP does not. -/
theorem test_guarded_witness :
    let s := put kernel 0x100 [0x3F, 0, 0, 0x60, 0, 0]
    (s.noHandlers && !s.paging && holdsAfter (exec .nop s) (fun t => t.gdtr == s.gdtr) &&
      holdsAfter (exec (.lgdtM (.abs32 0x100)) s) (fun t => t.gdtr == { base := 0x6000, limit := 0x3F })) = true := by
  decide +kernel

/-- UserStepsKeepSystemState: a step at level 3, and one that traps to level 0. -/
theorem test_user_witness :
    let s := code prot3 [0x90]
    let h := code prot3 [0xF4]
    (s.pe && s.cpl != 0 && s.noHandlers && holdsAfter (step s) (fun t => t.cpl == 3) &&
      holdsAfter (step h) (fun t => t.cpl == 0 && t.gdtr == h.gdtr)) = true := by
  decide +kernel

/-- LevelChanges: INT 3 and a fault go from level 3 to level 0, RETF from level 0 to level 3. -/
theorem test_level_witness :
    let i := { user with ctx := ⟨[], true, 1⟩ }
    let o := { leaving with ctx := ⟨[], true, 1⟩ }
    (Instr.int3.wf i.ctx && i.pe && i.noHandlers && holdsAfter (exec .int3 i) (fun t => t.cpl == 0) &&
      Instr.hlt.wf i.ctx && holdsAfter (exec .hlt i) (fun t => t.cpl == 0) && Instr.retf.wf o.ctx && o.pe && o.noHandlers &&
      holdsAfter (exec .retf o) (fun t => t.cpl == 3)) = true := by
  decide +kernel

/-- RealModeDelivery: the last vector of the table, and a frame that wraps at the end of the stack segment. -/
theorem test_delivery_witness :
    let s := { start with regs := { resetRegs with esp := 6 } }
    (start.canVector 255 0 && s.canVector 0 0xFFFF && start.plainWalks &&
      !{ start with regs := { resetRegs with esp := 5 } }.canVector 0 0 &&
      !{ start with idtr := { base := 0, limit := 0x3FE } }.canVector 255 0) = true := by
  decide +kernel

/-- GateDelivery: through gates of both widths to the same level, with an error code and without, and to an inner level. -/
theorem test_gate_witness :
    (kernel.canGate 13 .fault (some 0) kernel.eip && kernel.canGate 0x20 .softInt none kernel.nextEip &&
      kernel.canGate 14 .fault (some 2) kernel.eip && user.canGateInner 13 .fault (some 0) user.eip &&
      user.canGateInner 3 .softInt none user.nextEip && user.canGateInner 0x20 .external none user.eip &&
      !user.canGateInner 0x20 .softInt none user.eip && !kernel.canGateInner 13 .fault (some 0) kernel.eip &&
      !user.canGate 13 .fault (some 0) user.eip && mapped.canGate 14 .fault (some 0) mapped.eip) = true := by
  decide +kernel

/-- NestedDelivery: a vector just beyond the table limit with vector 13 inside it, and a limit that shuts out vector 13
too, in both modes. -/
theorem test_nested_witness :
    let r := fun (l : Half) => ({ start with idtr := { base := 0, limit := l } } : State)
    let p := fun (l : Half) => ({ kernel with idtr := { base := 0x3000, limit := l } } : State)
    (decide ((r 0x37).idtr.limit.toNat < 14 * 4 + 3) && (r 0x37).canDeliver 13 .fault (some 0) start.eip &&
      decide ((r 0x36).idtr.limit.toNat < 55) && !(r 0x36).canDeliver 13 .fault (some 0) start.eip &&
      decide ((p 0x6F).idtr.limit.toNat < 14 * 8 + 7) && (p 0x6F).canDeliver 13 .fault (some 115) kernel.eip &&
      (p 0x6E).idtr.limit.toNat.blt 111 && !(p 0x6E).canDeliver 13 .fault (some 107) kernel.eip) = true := by
  decide +kernel

/-- ReturnUndoesDelivery: a real-mode state whose CS is as a load leaves it, with the return address at the limit. -/
theorem test_return_witness :
    (Memory.wf start.mem && start.plainWalks && start.flagsFixed && start.ctx.osz == .b16 && start.segs.cs.valid &&
      start.segs.cs.base == start.segs.cs.sel.setWidth 32 <<< 4 && decide (0xFFFF ≤ start.segs.cs.limit.toNat) &&
      start.canVector 0x21 0xFFFF && runs .iret (start.vectored 0x21 0xFFFF)) = true := by
  decide +kernel

/-- OperandFaults: a byte and a word at and beyond the limit, in a data segment and in the stack segment; execute-only,
read-only and null segments. -/
theorem test_operand_witness :
    let s := { start with segs := { start.segs with ds := { start.segs.ds with limit := 0xFF }, ss := { start.segs.ss with limit := 0xFF } } }
    let k := fun (g : Segment) => { kernel with segs := { kernel.segs with ds := g } }
    let x := k { kernel.segs.ds with ar := ⟨9, true, 0, true, true, true⟩ }
    let ro := k { kernel.segs.ds with ar := ⟨1, true, 0, true, true, true⟩ }
    let z := k { kernel.segs.ds with valid := false }
    (!(s.seg .ds).inBounds 0x100 1 && (s.seg .ds).inBounds 0xFF 1 && !(s.seg .ds).inBounds 0xFF 2 &&
      !(s.seg .ss).inBounds 0x100 1 && s.plainWalks && s.ctx.osz == .b16 && (x.seg .ds).inBounds 0 4 && !x.mayRead .ds &&
      !x.mayWrite .ds && (x.seg .ds).valid && ro.readable .ds 0 4 && !ro.mayWrite .ds && ro.ctx.osz == .b32 &&
      !z.mayRead .ds && !z.mayWrite .ds && !(z.seg .ds).valid) = true ∧
      memLoc s (.abs16 0x100) = (.ds, 0x100) ∧ memLoc s (.ind16 .bp (.d16 0x100)) = (.ss, 0x100) := by
  decide +kernel

/-- OperandFaults: an absent directory entry, an absent page at the second byte, a page read-only at level 3, a table beyond
memory, and an operand that leaves memory at its last byte. -/
theorem test_blocked_witness :
    let u := put (pagedAt user) 0xE018 [0x05]
    let m := { kernel with params := { kernel.params with memSize := 0x9003 } }
    let e := put mapped 0xD004 [0x07, 0, 0, 0xF0]
    let f := { e with params := { e.params with memSize := 0x10000 } }
    (mapped.blockedAt .read .ds 0x400000 1 0 && mapped.walkFault .read false 0x400000 == some 0 &&
      mapped.blockedAt .write .ds 0x4FFF 4 1 && mapped.walkFault .write false 0x5000 == some 2 &&
      !mapped.blockedAt .write .ds 0x4FFF 4 0 && mapped.mayRead .ds && mapped.mayWrite .ds && u.readable .ds 0x6000 4 &&
      u.mayWrite .ds && u.blockedAt .write .ds 0x6000 4 0 && u.walkFault .write true 0x6000 == some 7 &&
      f.blockedAt .read .ds 0x400000 4 0 && f.blockedAt .write .ds 0x400000 1 0 &&
      f.walkFault .read false 0x400000 == none && (m.seg .ds).inBounds 0x9000 4 && m.leavesMemory .read .ds 0x9000 4 &&
      m.leavesMemory .write .ds 0x9000 4 && !m.leavesMemory .read .ds 0x9002 1 && m.plainWalks && u.plainWalks &&
      f.plainWalks) = true := by
  decide +kernel

/-- What one step that ends the run leaves. -/
def leaves (o : Step) (p : State → Bool) : Bool :=
  match stopLeft o with
  | some u => p u
  | none => false

/-- StopsLeaveWhatWasCommitted: a page fault, a trap and an interrupt that no vector of the table can take, the other two
reasons, and runs that end and do not. -/
theorem test_left_witness :
    let noTable := fun (s : State) => { s with idtr := { base := 0, limit := 0 } }
    let t := code (noTable { start with eflags := 0x102 }) [0x40]
    let i := noTable { start with eflags := 0x202, pendingIrq := [8, 9], activity := .halted }
    let m := { kernel with params := { kernel.params with memSize := 0x1000 } }
    (leaves (exec (.movR8Rm8 .eax (.mem (.abs32 0x5000))) (noTable mapped)) (fun u => u.cr2 == 0x5000 && u.depth == 0) &&
      t.fetches && leaves (step t) (fun u => u.eip == 1 && u.regs.eax == 1 && u.flag .tf && !u.tfAtStart) &&
      leaves (step i) (fun u => u.pendingIrq == [9] && u.activity == .running) &&
      (t.runBudget 3).1.eip == 1 && (t.runBudget 3).1.fatal == some .doubleFault &&
      (t.runBudget 3).2 == some .doubleFault && (m.runBudget 1).2 == some .physicalOutOfRange &&
      ((code start [0x0F, 0x0B]).runBudget 1).2 == some .unimplemented && ((code start [0x90]).runBudget 1).2 == none) =
      true ∧ t.decoded = .ok ⟨[], false, 1⟩ (.incRv .eax) (t.fetched.1.drop 1) := by
  decide +kernel

/-- PhysicalAccesses: the last bytes of memory, one byte too many, and an access that wraps. -/
theorem test_physical_witness :
    let s := { start with params := { start.params with memSize := 0x10000 } }
    (s.inRam (addrs 0xFFFC 4) && !s.inRam (addrs 0xFFFD 4) && s.inRam (addrs 0 1) && s.inRam (addrs 0xFFFFFFFF 0) &&
      !s.inRam (addrs 0xFFFFFFFF 2)) = true := by
  decide +kernel

/-- SegmentChecks: inside and outside a limit, expand-down of both sizes, an invalid segment, and each kind of right. -/
theorem test_segment_witness :
    let s := fun (g : Segment) => { kernel with segs := { kernel.segs with ds := g } }
    let down := fun db => (⟨0x10, 0, 0xFFF, ⟨7, true, 0, true, db, true⟩, true⟩ : Segment)
    (stopped (checkSegment .ds 0xFFFFFFFE 2 .write kernel) == none &&
      stopped (checkSegment .ds 0xFFF 1 .read (s (down true))) == some (protection 0) &&
      stopped (checkSegment .ds 0x1000 1 .read (s (down true))) == none &&
      stopped (checkSegment .ds 0xFFFF 1 .write (s (down false))) == none &&
      stopped (checkSegment .ds 0xFFFF 2 .write (s (down false))) == some (protection 0) &&
      stopped (checkSegment .ss 0x10000 1 .read start) == some (stackFault 0) &&
      stopped (checkSegment .ds 0 1 .read (s { kernel.segs.ds with valid := false })) == some (protection 0) &&
      stopped (checkSegment .ds 0 1 .write (s { kernel.segs.ds with ar := ⟨1, true, 0, true, true, true⟩ })) ==
        some (protection 0) &&
      stopped (checkSegment .ds 0 1 .read (s { kernel.segs.ds with ar := ⟨9, true, 0, true, true, true⟩ })) ==
        some (protection 0) &&
      stopped (checkSegment .cs 0 1 .fetch kernel) == none) = true := by
  decide +kernel

/-- PageTranslation: an absent directory entry, an absent page, a page of the supervisor, and one that is read-only. -/
theorem test_page_witness :
    let w := { mapped with params := { mapped.params with supervisorWriteProtect := true } }
    let ro := put mapped 0xE018 [0x05]
    (mapped.paging && mapped.plainWalks && !kernel.paging && mapped.entry 0xD000 == some 0xE007 &&
      mapped.entry 0xD004 == some 0 && mapped.entry 0xE014 == some 0x5006 && mapped.entry 0xE018 == some 0xA007 &&
      stopped (translate .read false 0x400000 mapped) == some (.raise ⟨14, some 0, some 0x400000⟩) &&
      stopped (translate .write true 0x5000 mapped) == some (.raise ⟨14, some 6, some 0x5000⟩) &&
      stopped (translate .write true 0x6FFF ro) == some (.raise ⟨14, some 7, some 0x6FFF⟩) &&
      stopped (translate .write false 0x6FFF ro) == none &&
      stopped (translate .write false 0x6FFF (put w 0xE018 [0x05])) == some (.raise ⟨14, some 3, some 0x6FFF⟩) &&
      stopped (translate .read true 0x6000 (put mapped 0xE018 [0x03])) == some (.raise ⟨14, some 5, some 0x6000⟩)) = true := by
  decide +kernel

/-- PageWalksMarkEntries: a walk for a write with PAGING_SETS_AD true, its two entries apart. -/
theorem test_mark_witness :
    let s := { mapped with params := { mapped.params with pagingSetsAD := true } }
    (Memory.wf s.mem && s.params.pagingSetsAD && s.paging && s.phys .write false 0x6004 == some 0xA004 &&
      s.entry ((s.cr3 &&& 0xFFFFF000) + ((0x6004 : Word) >>> 22) * 4) == some 0xE007 &&
      s.entry ((0xE007 &&& 0xFFFFF000) + (((0x6004 : Word) >>> 12) &&& 0x3FF) * 4) == some 0xA007) = true ∧
      (0xD000 : Word) ≠ 0xE018 := by
  decide +kernel

/-- DescriptorLookup: the last descriptor of the table, one beyond it, and a selector of a table that is not there. -/
theorem test_lookup_witness :
    let s := { kernel with gdtr := { kernel.gdtr with limit := 0x37 } }
    (s.plainWalks && stopped (readDescriptor 0x33 13 false s) == none &&
      stopped (readDescriptor 0x38 13 true s) == some (.raise ⟨13, some 0x39, none⟩) &&
      stopped (readDescriptor 0x33 13 false { s with gdtr := { s.gdtr with limit := 0x36 } }) ==
        some (.raise ⟨13, some 0x30, none⟩) &&
      stopped (readDescriptor 0x0F 11 false s) == some (.raise ⟨11, some 0x0C, none⟩) && !s.ldtr.valid &&
      s.backed .read false (s.gdtr.base + 0x30) 8 &&
      stopped (readDescriptor 0x0C 13 false
        { s with ldtr := { sel := 0x18, base := 0x2000, limit := 0xF, valid := true } }) == none) = true := by
  decide +kernel

/-- EffectiveAddresses: the last of several override prefixes, and no override at all. -/
theorem test_address_witness :
    (under start [.seg .es, .seg .fs, .rep] false 4).ctx.pfx = [.seg .es] ++ .seg .fs :: [.rep] ∧
      (∀ q ∈ [SReg.es, .cs, .ss, .ds, .fs, .gs], Pfx.seg q ∉ [Pfx.rep] ∧ Pfx.seg q ∉ start.ctx.pfx) := by
  decide +kernel

/-- ShiftResults: the least and the greatest effective count, and the greatest width of a double shift. -/
theorem test_count_witness :
    (0 < 1 ∧ 1 < 32) ∧ (0 < 31 ∧ 31 < 32) ∧ Size.b16 ≠ .b8 ∧ 16 ≤ Size.bits .b16 ∧
      shiftResult .sar (0x80 : Byte) 31 false = 0xFF ∧ doubleShiftResult true (0x1234 : Half) 0xABCD 16 = 0xABCD := by
  decide +kernel

/-- The frames: each family has a form that answers a next state with its own effect. -/
theorem test_frame_runs :
    let s := { start with regs := { resetRegs with esp := 0x200, ebx := 2, ecx := 1, eax := 5 } }
    ((s.regs.ecx == 1) && runs (.addRm8R8 (mem16 0xFFFF) .ebx) s && runs (.cmpRmvRv (mem16 0xFFFE) .ebx) s &&
      runs (.divRm8 (.reg .ebx)) s && runs (.shlRmvIb (mem16 0) 31) s && runs (.shldRmvRvCl (mem16 0) .ebx) s &&
      runs (.movRm8R8 (mem16 0xFFFF) .ebx) s && runs (.lesRvMem .ebx (.abs16 0xFFFC)) s && runs (.xchgRmvRv (mem16 0) .ebx) s &&
      runs .pusha s && runs .popa s && runs (.popRmv (mem16 0xFFFE)) s && runs .popf s && runs .movsV s && runs .insB s &&
      runs .outDxEax s && s.flagsFixed && runs .sahf s) = true := by
  decide +kernel

/-- The frames of system and control instructions. -/
theorem test_system_frame_runs :
    let s := leaving
    (runs (.lgdtM (.abs32 0)) s && runs (.sidtM (.abs32 0x6000)) s && runs (.lldtRm16 (.reg .eax)) s && runs .clts s &&
      runs (.ltrRm16 (.reg .ecx)) { s with regs := { s.regs with ecx := 0x20 } } && runs (.movCrR32 3 .cr3 .eax) s &&
      runs (.movR32Dr 3 .eax .dr7) s && runs .hlt s && runs .cli s && runs (.jmpFarPtr 0 8) s && runs (.callFarPtr 0 8) s &&
      runs .retf s && runs (.retfIw 4) s && runs .ret s && runs (.loopRel8 0xFE) s && runs (.intIb 13) s &&
      s.guestVector 13) = true := by
  decide +kernel

/-- ControlFrames: returns to the same level and in real mode, and one outward that is not to the same level. -/
theorem test_return_frame_runs :
    let s := { leaving with regs := { leaving.regs with esp := 0x8100 } }
    let sel := fun (t : State) => (BitVec.ofNat 16 ((t.popped 4).top 4) : Half)
    (s.plainWalks && decide (rpl (sel s) ≤ s.cpl) && runs .retf s && runs (.retfIw 4) s && runs .iret s &&
      !decide (rpl (sel leaving) ≤ leaving.cpl) && !start.pe && runs .retf start && runs .iret start) = true := by
  decide +kernel

/-- 95_test_vectors 2.2 R234. -/
theorem test_add_signed_overflow :
    after ({ start with regs := { start.regs with eax := 0x7F } }) [] [0x04, 0x01] (fun t =>
      t.regs.eax == 0x80 && status t == 0x890 && t.eip == 0x2) = true := by
  decide +kernel

/-- 95_test_vectors 2.2 R234. -/
theorem test_add_dword_wraps :
    after ({ start with regs := { start.regs with eax := 0xFFFFFFFF } }) [] [0x66, 0x05, 0x01, 0x00, 0x00, 0x00] (fun t =>
      t.regs.eax == 0x0 && status t == 0x55 && t.eip == 0x6) = true := by
  decide +kernel

/-- 95_test_vectors 2.2 R235. -/
theorem test_adc_carry_in :
    after ({ start with regs := { start.regs with eax := 0xFF }, eflags := 0x3 }) [] [0x14, 0xFF] (fun t =>
      t.regs.eax == 0xFF && status t == 0x95) = true := by
  decide +kernel

/-- 95_test_vectors 2.2 R236. -/
theorem test_sub_borrows :
    after ({ start with regs := { start.regs with eax := 0x0 } }) [] [0x2C, 0x01] (fun t =>
      t.regs.eax == 0xFF && status t == 0x95) = true := by
  decide +kernel

/-- 95_test_vectors 2.2 R236. -/
theorem test_sub_signed_overflow :
    after ({ start with regs := { start.regs with eax := 0x80 } }) [] [0x2C, 0x01] (fun t =>
      t.regs.eax == 0x7F && status t == 0x810) = true := by
  decide +kernel

/-- 95_test_vectors 2.2 R237. -/
theorem test_sbb_borrow_in :
    after ({ start with regs := { start.regs with eax := 0x0 }, eflags := 0x3 }) [] [0x1C, 0xFF] (fun t =>
      t.regs.eax == 0x0 && status t == 0x55) = true := by
  decide +kernel

/-- 95_test_vectors 2.2 R238. -/
theorem test_cmp_keeps_operand :
    after ({ start with regs := { start.regs with eax := 0x7F } }) [] [0x3C, 0x80] (fun t =>
      t.regs.eax == 0x7F && status t == 0x885) = true := by
  decide +kernel

/-- 95_test_vectors 2.2 R239. -/
theorem test_inc_keeps_carry :
    after ({ start with regs := { start.regs with eax := 0x7FFF }, eflags := 0x3 }) [] [0x40] (fun t =>
      t.regs.eax == 0x8000 && status t == 0x895) = true := by
  decide +kernel

/-- 95_test_vectors 2.2 R240. -/
theorem test_dec_keeps_carry :
    after ({ start with regs := { start.regs with eax := 0x0 } }) [] [0x48] (fun t =>
      t.regs.eax == 0xFFFF && status t == 0x94) = true := by
  decide +kernel

/-- 95_test_vectors 2.2 R241. -/
theorem test_neg_minimum :
    after ({ start with regs := { start.regs with eax := 0x80 } }) [] [0xF6, 0xD8] (fun t =>
      t.regs.eax == 0x80 && status t == 0x881) = true := by
  decide +kernel

/-- 95_test_vectors 2.2 R242. -/
theorem test_mul_word :
    after ({ start with regs := { start.regs with eax := 0xFFFF, ebx := 0xFFFF } }) [] [0xF7, 0xE3] (fun t =>
      t.regs.eax == 0x1 && t.regs.edx == 0xFFFE && t.eip == 0x2) = true := by
  decide +kernel

/-- 95_test_vectors 2.2 R242. -/
theorem test_mul_byte :
    after ({ start with regs := { start.regs with eax := 0x10, ebx := 0x10 } }) [] [0xF6, 0xE3] (fun t =>
      t.regs.eax == 0x100) = true := by
  decide +kernel

/-- 95_test_vectors 2.2 R243. -/
theorem test_imul_byte :
    after ({ start with regs := { start.regs with eax := 0x80, ebx := 0x80 } }) [] [0xF6, 0xEB] (fun t =>
      t.regs.eax == 0x4000) = true := by
  decide +kernel

/-- 95_test_vectors 2.2 R244. -/
theorem test_imul_three_operands :
    after ({ start with regs := { start.regs with ebx := 0x3 } }) [] [0x6B, 0xC3, 0xFE] (fun t =>
      t.regs.eax == 0xFFFA) = true := by
  decide +kernel

/-- 95_test_vectors 2.2 R245. -/
theorem test_div_word :
    after ({ start with regs := { start.regs with edx := 0x1, ebx := 0x2 } }) [] [0xF7, 0xF3] (fun t =>
      t.regs.eax == 0x8000 && t.regs.edx == 0x0) = true := by
  decide +kernel

/-- 95_test_vectors 2.2 R246. -/
theorem test_idiv_byte_remainder_sign :
    after ({ start with regs := { start.regs with eax := 0xFFF9, ebx := 0x2 } }) [] [0xF6, 0xFB] (fun t =>
      t.regs.eax == 0xFFFD) = true := by
  decide +kernel

/-- 95_test_vectors 2.2 R246. -/
theorem test_idiv_byte_negative_divisor :
    after ({ start with regs := { start.regs with eax := 0x7, ebx := 0xFE } }) [] [0xF6, 0xFB] (fun t =>
      t.regs.eax == 0x1FD) = true := by
  decide +kernel

/-- 95_test_vectors 2.2 R233. -/
theorem test_add_to_memory :
    after ({ start with regs := { start.regs with eax := 0x1, ebx := 0x10 } }) [(0x1010, [0xFF])] [0x00, 0x07] (fun t =>
      bytes t 0x1010 1 == [0x00] && status t == 0x55) = true := by
  decide +kernel

/-- 95_test_vectors 2.3 R261. -/
theorem test_and_byte :
    after ({ start with regs := { start.regs with eax := 0xF0 } }) [] [0x24, 0x0F] (fun t =>
      t.regs.eax == 0x0 && t.eip == 0x2) = true := by
  decide +kernel

/-- 95_test_vectors 2.3 R262. -/
theorem test_or_word :
    after ({ start with regs := { start.regs with eax := 0x8000 } }) [] [0x0D, 0x01, 0x00] (fun t =>
      t.regs.eax == 0x8001) = true := by
  decide +kernel

/-- 95_test_vectors S2 R263. -/
theorem test_xor_self :
    after ({ start with regs := { start.regs with eax := 0x807F } }) [] [0x30, 0xE4] (fun t =>
      t.regs.eax == 0x7F) = true := by
  decide +kernel

/-- 95_test_vectors 2.3 R264. -/
theorem test_not_keeps_flags :
    after ({ start with regs := { start.regs with eax := 0x55 }, eflags := 0x8D7 }) [] [0xF6, 0xD0] (fun t =>
      t.regs.eax == 0xAA && t.eflags == 0x8D7) = true := by
  decide +kernel

/-- 95_test_vectors 2.3 R265. -/
theorem test_test_keeps_operand :
    after ({ start with regs := { start.regs with eax := 0x80 } }) [] [0xA8, 0x80] (fun t =>
      t.regs.eax == 0x80 && t.eip == 0x2) = true := by
  decide +kernel

/-- 95_test_vectors 2.3 R266, R271. -/
theorem test_shl_count_masked_to_zero :
    after ({ start with regs := { start.regs with eax := 0x81, ecx := 0x20 }, eflags := 0x8D7 }) [] [0xD2, 0xE0] (fun t =>
      t.regs.eax == 0x81 && t.eflags == 0x8D7) = true := by
  decide +kernel

/-- 95_test_vectors 2.3 R271. -/
theorem test_shl_word :
    after ({ start with regs := { start.regs with eax := 0x1234 } }) [] [0xC1, 0xE0, 0x04] (fun t =>
      t.regs.eax == 0x2340) = true := by
  decide +kernel

/-- 95_test_vectors 2.3 R272. -/
theorem test_shr_word :
    after ({ start with regs := { start.regs with eax := 0x8001 } }) [] [0xD1, 0xE8] (fun t =>
      t.regs.eax == 0x4000) = true := by
  decide +kernel

/-- 95_test_vectors 2.3 R273. -/
theorem test_sar_byte :
    after ({ start with regs := { start.regs with eax := 0x80, ecx := 0x1F } }) [] [0xD2, 0xF8] (fun t =>
      t.regs.eax == 0xFF && t.regs.ecx == 0x1F) = true := by
  decide +kernel

/-- 95_test_vectors 2.3 R267. -/
theorem test_rol_byte :
    after ({ start with regs := { start.regs with eax := 0x80 } }) [] [0xD0, 0xC0] (fun t =>
      t.regs.eax == 0x1 && status t == 0x801) = true := by
  decide +kernel

/-- 95_test_vectors 2.3 R268. -/
theorem test_ror_byte :
    after ({ start with regs := { start.regs with eax := 0x1 } }) [] [0xD0, 0xC8] (fun t =>
      t.regs.eax == 0x80 && status t == 0x801) = true := by
  decide +kernel

/-- 95_test_vectors 2.3 R269. -/
theorem test_rcl_byte :
    after ({ start with regs := { start.regs with eax := 0x0 }, eflags := 0x3 }) [] [0xD0, 0xD0] (fun t =>
      t.regs.eax == 0x1 && status t == 0x0) = true := by
  decide +kernel

/-- 95_test_vectors 2.3 R270. -/
theorem test_rcr_byte :
    after ({ start with regs := { start.regs with eax := 0x1 }, eflags := 0x3 }) [] [0xD0, 0xD8] (fun t =>
      t.regs.eax == 0x80 && status t == 0x801) = true := by
  decide +kernel

/-- 95_test_vectors 2.3 R269. -/
theorem test_rcl_full_cycle :
    after ({ start with regs := { start.regs with eax := 0x5A }, eflags := 0x3 }) [] [0xC0, 0xD0, 0x09] (fun t =>
      t.regs.eax == 0x5A && t.eip == 0x3) = true := by
  decide +kernel

/-- 95_test_vectors 2.3 R274. -/
theorem test_shld_word :
    after ({ start with regs := { start.regs with eax := 0x1234, ebx := 0xABCD } }) [] [0x0F, 0xA4, 0xD8, 0x04] (fun t =>
      t.regs.eax == 0x234A) = true := by
  decide +kernel

/-- 95_test_vectors 2.3 R274. -/
theorem test_shld_full_width :
    after ({ start with regs := { start.regs with eax := 0x1234, ebx := 0xABCD } }) [] [0x0F, 0xA4, 0xD8, 0x10] (fun t =>
      t.regs.eax == 0xABCD) = true := by
  decide +kernel

/-- 95_test_vectors 2.3 R275. -/
theorem test_shrd_word :
    after ({ start with regs := { start.regs with eax := 0x1234, ebx := 0xABCD } }) [] [0x0F, 0xAC, 0xD8, 0x04] (fun t =>
      t.regs.eax == 0xD123) = true := by
  decide +kernel

/-- 95_test_vectors 2.3 R276. -/
theorem test_setcc_less :
    after ({ start with regs := { start.regs with eax := 0x0 }, eflags := 0x82 }) [] [0x0F, 0x9C, 0xC0] (fun t =>
      t.regs.eax == 0x1 && t.eflags == 0x82) = true := by
  decide +kernel

/-- 95_test_vectors 2.3 R276. -/
theorem test_setcc_not_equal_clears :
    after ({ start with regs := { start.regs with eax := 0xFF } }) [] [0x0F, 0x94, 0xC0] (fun t =>
      t.regs.eax == 0x0) = true := by
  decide +kernel

/-- 95_test_vectors 2.4 R302. -/
theorem test_movs_down :
    after ({ start with regs := { start.regs with esi := 0x10, edi := 0x20 }, eflags := 0x402 }) [(0x1010, [0xEF, 0xBE])] [0xA5] (fun t =>
      bytes t 0x1020 2 == [0xEF, 0xBE] && t.regs.esi == 0xE && t.regs.edi == 0x1E && t.eip == 0x1) = true := by
  decide +kernel

/-- 95_test_vectors 2.4 R301. -/
theorem test_rep_movs_empty :
    after ({ start with regs := { start.regs with ecx := 0x0, esi := 0x5, edi := 0x9 } }) [] [0xF3, 0xA4] (fun t =>
      t.regs.esi == 0x5 && t.regs.edi == 0x9 && t.eip == 0x2) = true := by
  decide +kernel

/-- 95_test_vectors 2.4 R301. -/
theorem test_rep_movs_first :
    after ({ start with regs := { start.regs with ecx := 0x3, esi := 0x100, edi := 0x101 } }) [(0x1100, [0xAA])] [0xF3, 0xA4] (fun t =>
      bytes t 0x1101 1 == [0xAA] && t.regs.ecx == 0x2 && t.regs.esi == 0x101 && t.regs.edi == 0x102 && t.eip == 0x0) = true := by
  decide +kernel

/-- 95_test_vectors 2.4 R306. -/
theorem test_repne_scas_last :
    after ({ start with regs := { start.regs with eax := 0x5A, ecx := 0x1, edi := 0x41 } }) [(0x1041, [0x42])] [0xF2, 0xAE] (fun t =>
      t.regs.ecx == 0x0 && t.regs.edi == 0x42 && status t == 0x4 && t.eip == 0x2) = true := by
  decide +kernel

/-- R301, R303, by hand from the rule. -/
theorem test_repe_cmps_stops :
    after ({ start with regs := { start.regs with ecx := 0x5, esi := 0x40, edi := 0x50 } }) [(0x1040, [0x01]), (0x1050, [0x02])] [0xF3, 0xA6] (fun t =>
      t.regs.ecx == 0x4 && t.regs.esi == 0x41 && t.regs.edi == 0x51 && status t == 0x95 && t.eip == 0x2) = true := by
  decide +kernel

/-- 95_test_vectors 2.4 R301. -/
theorem test_stos_wide_count :
    after ({ start with regs := { start.regs with eax := 0x77, ecx := 0x10000, edi := 0x30 } }) [] [0x67, 0xF3, 0xAA] (fun t =>
      t.regs.ecx == 0xFFFF && t.regs.edi == 0x31 && bytes t 0x1030 1 == [0x77] && t.eip == 0x0) = true := by
  decide +kernel

/-- 95_test_vectors 2.4 R305. -/
theorem test_lods_byte :
    after ({ start with regs := { start.regs with esi := 0x40 } }) [(0x1040, [0x5A])] [0xAC] (fun t =>
      t.regs.eax == 0x5A && t.regs.esi == 0x41) = true := by
  decide +kernel

/-- 95_test_vectors 2.4 R304. -/
theorem test_stos_ignores_override :
    after ({ start with regs := { start.regs with eax := 0x66, edi := 0x30 } }) [] [0x3E, 0xAA] (fun t =>
      bytes t 0x1030 1 == [0x66] && t.regs.edi == 0x31) = true := by
  decide +kernel

/-- 95_test_vectors 2.4 R320. -/
theorem test_in_unmapped :
    after (start) [] [0xE4, 0x60] (fun t =>
      t.regs.eax == 0xFF) = true := by
  decide +kernel

/-- 95_test_vectors 2.4 R320. -/
theorem test_in_word_keeps_upper :
    after ({ start with regs := { start.regs with eax := 0x12345678 } }) [] [0xED] (fun t =>
      t.regs.eax == 0x1234FFFF) = true := by
  decide +kernel

/-- 95_test_vectors 2.4 R318. -/
theorem test_out_two_words :
    after ({ start with regs := { start.regs with eax := 0xAABBCCDD, edx := 0xFFFE }, params := { start.params with portHandlers := [0xFFFE, 0x0000] } }) [] [0x66, 0xEF] (fun t =>
      t.events == [.portWrite 0xFFFE 16 0xCCDD, .portWrite 0x0000 16 0xAABB]) = true := by
  decide +kernel

/-- 95_test_vectors S8 R321. -/
theorem test_out_unmapped :
    after ({ start with regs := { start.regs with eax := 0x1 } }) [] [0xE6, 0x60] (fun t =>
      t.events == [] && t.eip == 0x2) = true := by
  decide +kernel

/-- R307, by hand from the rule. -/
theorem test_ins_unmapped :
    after ({ start with regs := { start.regs with edx := 0x60, edi := 0x30 } }) [] [0x6C] (fun t =>
      bytes t 0x1030 1 == [0xFF] && t.regs.edi == 0x31) = true := by
  decide +kernel

/-- R308, by hand from the rule. -/
theorem test_outs_mapped :
    after ({ start with regs := { start.regs with edx := 0x60, esi := 0x30 }, params := { start.params with portHandlers := [0x60] } }) [(0x1030, [0x5A])] [0x6E] (fun t =>
      t.events == [.portWrite 0x60 8 0x5A] && t.regs.esi == 0x31) = true := by
  decide +kernel

/-- 95_test_vectors 2.5 R333. -/
theorem test_push_word :
    after ({ start with regs := { start.regs with eax := 0x1234, esp := 0x100 } }) [] [0x50] (fun t =>
      bytes t 0x10FE 2 == [0x34, 0x12] && t.regs.esp == 0xFE && t.eip == 0x1) = true := by
  decide +kernel

/-- 95_test_vectors 2.5 R333. -/
theorem test_push_sp :
    after ({ start with regs := { start.regs with esp := 0x100 } }) [] [0x54] (fun t =>
      bytes t 0x10FE 2 == [0x00, 0x01] && t.regs.esp == 0xFE) = true := by
  decide +kernel

/-- 95_test_vectors 2.5 R337. -/
theorem test_pop_sp :
    after ({ start with regs := { start.regs with esp := 0xFE } }) [(0x10FE, [0x00, 0x03])] [0x5C] (fun t =>
      t.regs.esp == 0x300) = true := by
  decide +kernel

/-- 95_test_vectors 2.5 R336. -/
theorem test_push_segment :
    after (start) [] [0x1E] (fun t =>
      bytes t 0x11FE 2 == [0x00, 0x01] && t.regs.esp == 0x1FE) = true := by
  decide +kernel

/-- 95_test_vectors 2.5 R339. -/
theorem test_pop_segment :
    after ({ start with regs := { start.regs with esp := 0xFE } }) [(0x10FE, [0x00, 0x20])] [0x1F] (fun t =>
      t.segs.ds.sel == 0x2000 && t.segs.ds.base == 0x20000 && t.regs.esp == 0x100) = true := by
  decide +kernel

/-- 95_test_vectors 2.5 R334. -/
theorem test_push_immediate :
    after (start) [] [0x6A, 0xFF] (fun t =>
      bytes t 0x11FE 2 == [0xFF, 0xFF] && t.regs.esp == 0x1FE) = true := by
  decide +kernel

/-- 95_test_vectors 2.5 R340. -/
theorem test_pusha_order :
    after ({ start with regs := { start.regs with eax := 0x1, ecx := 0x2, edx := 0x3, ebx := 0x4, esp := 0x100, ebp := 0x5, esi := 0x6, edi := 0x7 } }) [] [0x60] (fun t =>
      bytes t 0x10F0 16 == [0x07, 0x00, 0x06, 0x00, 0x05, 0x00, 0x00, 0x01, 0x04, 0x00, 0x03, 0x00, 0x02, 0x00, 0x01, 0x00] && t.regs.esp == 0xF0) = true := by
  decide +kernel

/-- 95_test_vectors 2.5 R341. -/
theorem test_popa_order :
    after ({ start with regs := { start.regs with esp := 0xF0 } }) [(0x10F0, [0x07, 0x00, 0x06, 0x00, 0x05, 0x00, 0x00, 0x09, 0x04, 0x00, 0x03, 0x00, 0x02, 0x00, 0x01, 0x00])] [0x61] (fun t =>
      t.regs.eax == 0x1 && t.regs.ecx == 0x2 && t.regs.edx == 0x3 && t.regs.ebx == 0x4 && t.regs.esp == 0x100 && t.regs.ebp == 0x5 && t.regs.esi == 0x6 && t.regs.edi == 0x7) = true := by
  decide +kernel

/-- 95_test_vectors 2.5 R345. -/
theorem test_pushf_word :
    after ({ start with eflags := 0x246 }) [] [0x9C] (fun t =>
      bytes t 0x11FE 2 == [0x46, 0x02]) = true := by
  decide +kernel

/-- 95_test_vectors 2.5 R346. -/
theorem test_popf_masks :
    after ({ start with regs := { start.regs with esp := 0xFE } }) [(0x10FE, [0xFF, 0xFF])] [0x9D] (fun t =>
      t.eflags == 0x7FD7 && t.regs.esp == 0x100) = true := by
  decide +kernel

/-- 95_test_vectors 2.5 R347. -/
theorem test_leave_word :
    after ({ start with regs := { start.regs with ebp := 0xF0 } }) [(0x10F0, [0x23, 0x01])] [0xC9] (fun t =>
      t.regs.esp == 0xF2 && t.regs.ebp == 0x123) = true := by
  decide +kernel

/-- 95_test_vectors S6 R361. -/
theorem test_lgdt_word :
    after (start) [(0x1100, [0xFF, 0x03, 0x00, 0x10, 0x20, 0xAB])] [0x0F, 0x01, 0x16, 0x00, 0x01] (fun t =>
      t.gdtr == { base := 0x00201000, limit := 0x03FF }) = true := by
  decide +kernel

/-- 95_test_vectors S6 R361. -/
theorem test_lgdt_dword :
    after (start) [(0x1100, [0xFF, 0x03, 0x00, 0x10, 0x20, 0xAB])] [0x66, 0x0F, 0x01, 0x16, 0x00, 0x01] (fun t =>
      t.gdtr == { base := 0xAB201000, limit := 0x03FF }) = true := by
  decide +kernel

/-- 95_test_vectors S6 R362. -/
theorem test_lidt_word :
    after (start) [(0x1100, [0xFF, 0x03, 0x00, 0x10, 0x20, 0xAB])] [0x0F, 0x01, 0x1E, 0x00, 0x01] (fun t =>
      t.idtr == { base := 0x00201000, limit := 0x03FF }) = true := by
  decide +kernel

/-- 95_test_vectors 2.6 R363. -/
theorem test_sgdt_dword :
    after ({ start with gdtr := { base := 0xAB201000, limit := 0x03FF } }) [] [0x66, 0x0F, 0x01, 0x06, 0x00, 0x03] (fun t =>
      bytes t 0x1300 6 == [0xFF, 0x03, 0x00, 0x10, 0x20, 0xAB]) = true := by
  decide +kernel

/-- R364, by hand from the rule. -/
theorem test_sidt_dword :
    after ({ start with idtr := { base := 0xAB201000, limit := 0x03FF } }) [] [0x66, 0x0F, 0x01, 0x0E, 0x00, 0x03] (fun t =>
      bytes t 0x1300 6 == [0xFF, 0x03, 0x00, 0x10, 0x20, 0xAB]) = true := by
  decide +kernel

/-- 95_test_vectors 2.6 R370. -/
theorem test_mov_to_cr0 :
    after ({ start with regs := { start.regs with eax := 0x1 } }) [] [0x0F, 0x22, 0xC0] (fun t =>
      t.cr0 == 1 && t.segs.cs.base == 0x1000 && t.eip == 0x3) = true := by
  decide +kernel

/-- 95_test_vectors 2.6 R377. -/
theorem test_mov_from_cr2 :
    after ({ start with cr2 := 0x5008 }) [] [0x0F, 0x20, 0xD0] (fun t =>
      t.regs.eax == 0x5008) = true := by
  decide +kernel

/-- R371, by hand from the rule. -/
theorem test_mov_to_dr7 :
    after ({ start with regs := { start.regs with eax := 0x155 } }) [] [0x0F, 0x23, 0xF8] (fun t =>
      t.dr.dr7 == 0x155) = true := by
  decide +kernel

/-- R378, by hand from the rule. -/
theorem test_mov_from_dr3 :
    after ({ start with dr := ⟨1, 2, 3, 4, 5, 6⟩ }) [] [0x0F, 0x21, 0xD8] (fun t =>
      t.regs.eax == 0x4) = true := by
  decide +kernel

/-- 95_test_vectors 2.6 R372. -/
theorem test_smsw_register :
    after ({ start with cr0 := 0x80000010 }) [] [0x0F, 0x01, 0xE0] (fun t =>
      t.regs.eax == 0x10) = true := by
  decide +kernel

/-- 95_test_vectors 2.6 R373. -/
theorem test_lmsw_four_bits :
    after ({ start with regs := { start.regs with eax := 0xFFFF } }) [] [0x0F, 0x01, 0xF0] (fun t =>
      t.cr0 == 0xF) = true := by
  decide +kernel

/-- 95_test_vectors 2.6 R374. -/
theorem test_clts_bit :
    after ({ start with cr0 := 0x8 }) [] [0x0F, 0x06] (fun t =>
      t.cr0 == 0) = true := by
  decide +kernel

/-- 95_test_vectors 2.6 R380. -/
theorem test_mov_to_segment_real :
    after ({ start with regs := { start.regs with eax := 0x1234 } }) [] [0x8E, 0xD8] (fun t =>
      t.segs.ds.sel == 0x1234 && t.segs.ds.base == 0x12340 && t.segs.ds.limit == 0xFFFF) = true := by
  decide +kernel

/-- 95_test_vectors 2.6 R381. -/
theorem test_mov_from_segment :
    after ({ start with regs := { start.regs with eax := 0xAAAA0000 } }) [] [0x8C, 0xD8] (fun t =>
      t.regs.eax == 0xAAAA0100) = true := by
  decide +kernel

/-- 95_test_vectors 2.6 R383. -/
theorem test_les_real :
    after ({ start with regs := { start.regs with esi := 0x40 } }) [(0x1040, [0x34, 0x12, 0x00, 0x20])] [0xC4, 0x1C] (fun t =>
      t.regs.ebx == 0x1234 && t.segs.es.sel == 0x2000 && t.segs.es.base == 0x20000) = true := by
  decide +kernel

/-- R382, by hand from the rule. -/
theorem test_lds_real :
    after ({ start with regs := { start.regs with esi := 0x40 } }) [(0x1040, [0x34, 0x12, 0x00, 0x20])] [0xC5, 0x1C] (fun t =>
      t.regs.ebx == 0x1234 && t.segs.ds.sel == 0x2000) = true := by
  decide +kernel

/-- 95_test_vectors 2.6 R384. -/
theorem test_lss_real :
    after (start) [(0x1200, [0x00, 0x01, 0x00, 0x20])] [0x0F, 0xB2, 0x26, 0x00, 0x02] (fun t =>
      t.regs.esp == 0x100 && t.segs.ss.sel == 0x2000) = true := by
  decide +kernel

/-- R385, by hand from the rule. -/
theorem test_lfs_real :
    after ({ start with regs := { start.regs with esi := 0x40 } }) [(0x1040, [0x34, 0x12, 0x00, 0x20])] [0x0F, 0xB4, 0x1C] (fun t =>
      t.regs.ebx == 0x1234 && t.segs.fs.sel == 0x2000) = true := by
  decide +kernel

/-- R386, by hand from the rule. -/
theorem test_lgs_real :
    after ({ start with regs := { start.regs with esi := 0x40 } }) [(0x1040, [0x34, 0x12, 0x00, 0x20])] [0x0F, 0xB5, 0x1C] (fun t =>
      t.regs.ebx == 0x1234 && t.segs.gs.sel == 0x2000) = true := by
  decide +kernel

/-- 95_test_vectors S7 R390. -/
theorem test_hlt_halts :
    after (start) [] [0xF4] (fun t =>
      t.activity == .halted && t.eip == 0x1) = true := by
  decide +kernel

/-- R391, by hand from the rule. -/
theorem test_cli_clears :
    after ({ start with eflags := 0x202 }) [] [0xFA] (fun t =>
      t.eflags == 2) = true := by
  decide +kernel

/-- 95_test_vectors 2.6 R392. -/
theorem test_sti_sets :
    after (start) [] [0xFB] (fun t =>
      t.eflags == 0x202) = true := by
  decide +kernel

/-- 95_test_vectors 2.7 R400. -/
theorem test_mov_byte_views :
    after ({ start with regs := { start.regs with eax := 0x12FF } }) [] [0x88, 0xE0] (fun t =>
      t.regs.eax == 0x1212) = true := by
  decide +kernel

/-- 95_test_vectors 2.7 R400. -/
theorem test_mov_word_keeps_upper :
    after ({ start with regs := { start.regs with eax := 0xAAAA0000, ebx := 0x1234 } }) [] [0x89, 0xD8] (fun t =>
      t.regs.eax == 0xAAAA1234) = true := by
  decide +kernel

/-- 95_test_vectors 2.7 R401. -/
theorem test_mov_moffs_override :
    after ({ start with regs := { start.regs with eax := 0xBEEF } }) [] [0x26, 0xA3, 0x00, 0x01] (fun t =>
      bytes t 0x1100 2 == [0xEF, 0xBE]) = true := by
  decide +kernel

/-- 95_test_vectors 2.7 R402. -/
theorem test_mov_ah :
    after (start) [] [0xB4, 0x09] (fun t =>
      t.regs.eax == 0x900) = true := by
  decide +kernel

/-- 95_test_vectors 2.7 R403. -/
theorem test_xchg_memory :
    after ({ start with regs := { start.regs with eax := 0x22, ebx := 0x40 } }) [(0x1040, [0x11])] [0x86, 0x07] (fun t =>
      bytes t 0x1040 1 == [0x22] && t.regs.eax == 0x11) = true := by
  decide +kernel

/-- 95_test_vectors 2.7 R403. -/
theorem test_xchg_accumulator :
    after ({ start with regs := { start.regs with eax := 0x1, ebx := 0x2 } }) [] [0x93] (fun t =>
      t.regs.eax == 0x2 && t.regs.ebx == 0x1) = true := by
  decide +kernel

/-- 95_test_vectors 2.7 R404. -/
theorem test_lea_wraps :
    after ({ start with regs := { start.regs with ebx := 0xFFFF, esi := 0x2 } }) [] [0x8D, 0x40, 0x05] (fun t =>
      t.regs.eax == 0x6) = true := by
  decide +kernel

/-- 95_test_vectors 2.7 R405. -/
theorem test_movzx_byte :
    after ({ start with regs := { start.regs with eax := 0xFFFFFFFF, ebx := 0x80 } }) [] [0x66, 0x0F, 0xB6, 0xC3] (fun t =>
      t.regs.eax == 0x80) = true := by
  decide +kernel

/-- 95_test_vectors 2.7 R406. -/
theorem test_movsx_word :
    after ({ start with regs := { start.regs with ebx := 0x8000 } }) [] [0x66, 0x0F, 0xBF, 0xC3] (fun t =>
      t.regs.eax == 0xFFFF8000) = true := by
  decide +kernel

/-- 95_test_vectors 2.7 R407. -/
theorem test_cbw_word :
    after ({ start with regs := { start.regs with eax := 0x80 } }) [] [0x98] (fun t =>
      t.regs.eax == 0xFF80) = true := by
  decide +kernel

/-- 95_test_vectors 2.7 R407. -/
theorem test_cwde_dword :
    after ({ start with regs := { start.regs with eax := 0x8000 } }) [] [0x66, 0x98] (fun t =>
      t.regs.eax == 0xFFFF8000) = true := by
  decide +kernel

/-- 95_test_vectors 2.7 R408. -/
theorem test_cwd_word :
    after ({ start with regs := { start.regs with eax := 0x8000 } }) [] [0x99] (fun t =>
      t.regs.edx == 0xFFFF) = true := by
  decide +kernel

/-- 95_test_vectors 2.7 R408. -/
theorem test_cdq_dword :
    after ({ start with regs := { start.regs with eax := 0x7FFFFFFF, edx := 0x5 } }) [] [0x66, 0x99] (fun t =>
      t.regs.edx == 0x0) = true := by
  decide +kernel

/-- 95_test_vectors 2.7 R409. -/
theorem test_xlat_wraps :
    after ({ start with regs := { start.regs with eax := 0x2, ebx := 0xFFFF } }) [(0x1001, [0x41])] [0xD7] (fun t =>
      t.regs.eax == 0x41) = true := by
  decide +kernel

/-- 95_test_vectors 2.7 R410. -/
theorem test_lahf_image :
    after ({ start with eflags := 0x93 }) [] [0x9F] (fun t =>
      t.regs.eax == 0x9300) = true := by
  decide +kernel

/-- 95_test_vectors 2.7 R411. -/
theorem test_sahf_image :
    after ({ start with regs := { start.regs with eax := 0xFF00 } }) [] [0x9E] (fun t =>
      t.eflags == 0xD7) = true := by
  decide +kernel

/-- R412, by hand from the rule. -/
theorem test_nop_advances :
    after (start) [] [0x90] (fun t =>
      t.eip == 0x1 && t.eflags == 2) = true := by
  decide +kernel

/-- R413, by hand from the rule. -/
theorem test_clc_clears :
    after ({ start with eflags := 0x3 }) [] [0xF8] (fun t =>
      t.eflags == 2) = true := by
  decide +kernel

/-- R414, by hand from the rule. -/
theorem test_stc_sets :
    after (start) [] [0xF9] (fun t =>
      t.eflags == 3) = true := by
  decide +kernel

/-- 95_test_vectors 2.7 R415. -/
theorem test_cmc_flips :
    after ({ start with eflags := 0x3 }) [] [0xF5] (fun t =>
      t.eflags == 2) = true := by
  decide +kernel

/-- 95_test_vectors 2.7 R416. -/
theorem test_cld_clears :
    after ({ start with eflags := 0x402 }) [] [0xFC] (fun t =>
      t.eflags == 2) = true := by
  decide +kernel

/-- 95_test_vectors 2.7 R417. -/
theorem test_std_sets :
    after (start) [] [0xFD] (fun t =>
      t.eflags == 0x402) = true := by
  decide +kernel

/-- 95_test_vectors 2.8 R431. -/
theorem test_jmp_self :
    after ({ start with eip := 0x100 }) [] [0xEB, 0xFE] (fun t =>
      t.eip == 0x100) = true := by
  decide +kernel

/-- 95_test_vectors 2.8 R430. -/
theorem test_jmp_truncates :
    after ({ start with eip := 0xC000 }) [] [0xE9, 0x00, 0x80] (fun t =>
      t.eip == 0x4003) = true := by
  decide +kernel

/-- 95_test_vectors 2.8 R433. -/
theorem test_jz_taken :
    after ({ start with eip := 0x100, eflags := 0x42 }) [] [0x74, 0x05] (fun t =>
      t.eip == 0x107) = true := by
  decide +kernel

/-- 95_test_vectors 2.8 R433. -/
theorem test_jl_near :
    after ({ start with eip := 0x100, eflags := 0x82 }) [] [0x0F, 0x8C, 0x00, 0x01] (fun t =>
      t.eip == 0x204) = true := by
  decide +kernel

/-- 95_test_vectors 2.8 R434. -/
theorem test_jcxz_sixteen_bits :
    after ({ start with regs := { start.regs with ecx := 0x10000 }, eip := 0x100 }) [] [0xE3, 0x05] (fun t =>
      t.eip == 0x107) = true := by
  decide +kernel

/-- 95_test_vectors 2.8 R435. -/
theorem test_loop_from_zero :
    after ({ start with eip := 0x100 }) [] [0xE2, 0xFE] (fun t =>
      t.eip == 0x100 && t.regs.ecx == 0xFFFF) = true := by
  decide +kernel

/-- 95_test_vectors 2.8 R436. -/
theorem test_loope_not_taken :
    after ({ start with regs := { start.regs with ecx := 0x5 }, eip := 0x100 }) [] [0xE1, 0xFE] (fun t =>
      t.eip == 0x102 && t.regs.ecx == 0x4) = true := by
  decide +kernel

/-- 95_test_vectors 2.8 R437. -/
theorem test_loopne_taken :
    after ({ start with regs := { start.regs with ecx := 0x5 }, eip := 0x100 }) [] [0xE0, 0xFE] (fun t =>
      t.eip == 0x100 && t.regs.ecx == 0x4) = true := by
  decide +kernel

/-- 95_test_vectors 2.8 R438. -/
theorem test_call_near :
    after ({ start with regs := { start.regs with esp := 0x1FE }, eip := 0x4 }) [] [0xE8, 0x04, 0x00] (fun t =>
      bytes t 0x11FC 2 == [0x07, 0x00] && t.regs.esp == 0x1FC && t.eip == 0xB) = true := by
  decide +kernel

/-- 95_test_vectors 2.8 R439. -/
theorem test_call_register :
    after ({ start with regs := { start.regs with ebx := 0x200 }, eip := 0x10 }) [] [0xFF, 0xD3] (fun t =>
      bytes t 0x11FE 2 == [0x12, 0x00] && t.eip == 0x200) = true := by
  decide +kernel

/-- 95_test_vectors 2.8 R432. -/
theorem test_jmp_register :
    after ({ start with regs := { start.regs with ebx := 0x1234 } }) [] [0xFF, 0xE3] (fun t =>
      t.eip == 0x1234) = true := by
  decide +kernel

/-- 95_test_vectors 2.8 R440. -/
theorem test_ret_near :
    after ({ start with regs := { start.regs with esp := 0x1FC } }) [(0x11FC, [0x07, 0x00])] [0xC3] (fun t =>
      t.eip == 0x7 && t.regs.esp == 0x1FE) = true := by
  decide +kernel

/-- 95_test_vectors 2.8 R440. -/
theorem test_ret_releases :
    after ({ start with regs := { start.regs with esp := 0x1FC } }) [(0x11FC, [0x07, 0x00])] [0xC2, 0x04, 0x00] (fun t =>
      t.eip == 0x7 && t.regs.esp == 0x202) = true := by
  decide +kernel

/-- 95_test_vectors 2.8 R447. -/
theorem test_call_far_real :
    after ({ start with eip := 0x100 }) [] [0x9A, 0x00, 0x00, 0x00, 0x20] (fun t =>
      bytes t 0x11FC 4 == [0x05, 0x01, 0x00, 0x01] && t.regs.esp == 0x1FC && t.eip == 0x0 && t.segs.cs.sel == 0x2000 && t.segs.cs.base == 0x20000) = true := by
  decide +kernel

/-- 95_test_vectors 2.8 R448. -/
theorem test_retf_real :
    after ({ start with regs := { start.regs with esp := 0x1FC } }) [(0x11FC, [0x05, 0x01, 0x00, 0x10])] [0xCB] (fun t =>
      t.regs.esp == 0x200 && t.eip == 0x105 && t.segs.cs.sel == 0x1000) = true := by
  decide +kernel

/-- R446, by hand from the rule. -/
theorem test_jmp_far_memory :
    after ({ start with regs := { start.regs with esi := 0x40 } }) [(0x1040, [0x34, 0x12, 0x00, 0x20])] [0xFF, 0x2C] (fun t =>
      t.eip == 0x1234 && t.segs.cs.base == 0x20000) = true := by
  decide +kernel

/-- R460, R501, by hand from the rule. -/
theorem test_int_real :
    after ({ start with eip := 0x10, eflags := 0x302 }) [(0x84, [0x00, 0x30, 0x00, 0x02])] [0xCD, 0x21] (fun t =>
      bytes t 0x11FA 6 == [0x12, 0x00, 0x00, 0x01, 0x02, 0x03] && t.regs.esp == 0x1FA && t.eip == 0x3000 && t.eflags == 2 && t.segs.cs.base == 0x2000) = true := by
  decide +kernel

/-- 95_test_vectors 2.8 R461. -/
theorem test_int3_real :
    after ({ start with eip := 0x10 }) [(0xC, [0x00, 0x30, 0x00, 0x01])] [0xCC] (fun t =>
      bytes t 0x11FA 2 == [0x11, 0x00] && t.eip == 0x3000) = true := by
  decide +kernel

/-- 95_test_vectors 2.8 R462. -/
theorem test_into_without_overflow :
    after (start) [] [0xCE] (fun t =>
      t.eip == 0x1 && t.regs.esp == 0x200) = true := by
  decide +kernel

/-- 95_test_vectors 2.8 R462. -/
theorem test_into_with_overflow :
    after ({ start with eflags := 0x802 }) [(0x10, [0x00, 0x30, 0x00, 0x01])] [0xCE] (fun t =>
      t.eip == 0x3000 && bytes t 0x11FA 6 == [0x01, 0x00, 0x00, 0x01, 0x02, 0x08]) = true := by
  decide +kernel

/-- 95_test_vectors 2.8 R470. -/
theorem test_iret_real :
    after ({ start with regs := { start.regs with esp := 0x1FA } }) [(0x11FA, [0x05, 0x01, 0x00, 0x10, 0xFF, 0xFF])] [0xCF] (fun t =>
      t.eip == 0x105 && t.segs.cs.sel == 0x1000 && t.eflags == 0x7FD7 && t.regs.esp == 0x200) = true := by
  decide +kernel

/-- 95_test_vectors 2.9 X6. -/
theorem test_single_step_after_nop :
    after ({ start with eip := 0x101, eflags := 0x302 }) [(0x4, [0x00, 0x30, 0x00, 0x01])] [0x90] (fun t =>
      bytes t 0x11FA 6 == [0x02, 0x01, 0x00, 0x01, 0x02, 0x03] && t.eip == 0x3000 && t.eflags == 2) = true := by
  decide +kernel

/-- 95_test_vectors 2.9 X6. -/
theorem test_popf_setting_tf_is_not_trapped :
    after ({ start with eip := 0x100 }) [(0x1200, [0x02, 0x03])] [0x9D] (fun t =>
      t.eip == 0x101 && t.eflags == 0x302) = true := by
  decide +kernel

/-- 95_test_vectors 2.9 X7. -/
theorem test_divide_error_real :
    after ({ start with regs := { start.regs with eax := 0x5, edx := 0x1 }, eip := 0x10 }) [(0x0, [0x00, 0x40, 0x00, 0x01])] [0xF7, 0xF3] (fun t =>
      bytes t 0x11FA 6 == [0x10, 0x00, 0x00, 0x01, 0x02, 0x00] && t.regs.eax == 0x5 && t.regs.edx == 0x1 && t.eip == 0x4000) = true := by
  decide +kernel

/-- 95_test_vectors 2.9 X9. -/
theorem test_int_beyond_table :
    after ({ start with eip := 0x10, idtr := { base := 0, limit := 0x37 } }) [(0x34, [0x00, 0x50, 0x00, 0x01])] [0xCD, 0x40] (fun t =>
      bytes t 0x11FA 6 == [0x10, 0x00, 0x00, 0x01, 0x02, 0x00] && t.eip == 0x5000) = true := by
  decide +kernel

/-- 95_test_vectors 2.2 R102. -/
theorem test_operand_beyond_limit :
    after ({ start with regs := { start.regs with eax := 0x1, ebx := 0x10 }, segs := { start.segs with ds := { start.segs.ds with limit := 0xF } } }) [(0x34, [0x00, 0x50, 0x00, 0x01])] [0x00, 0x07] (fun t =>
      bytes t 0x11FA 4 == [0x00, 0x00, 0x00, 0x01] && t.eip == 0x5000 && bytes t 0x1010 1 == [0x00]) = true := by
  decide +kernel

/-- 95_test_vectors S7 R521. -/
theorem test_interrupt_wakes :
    after ({ start with eip := 0x11, eflags := 0x202, activity := .halted, pendingIrq := [8, 9] }) [(0x20, [0x00, 0x20, 0x00, 0x01])] [0x90] (fun t =>
      bytes t 0x11FA 6 == [0x11, 0x00, 0x00, 0x01, 0x02, 0x02] && t.eip == 0x2000 && t.activity == .running && t.pendingIrq == [9] && t.eflags == 2) = true := by
  decide +kernel

/-- 95_test_vectors S7 R522. -/
theorem test_halted_waits :
    after ({ start with eflags := 0x2, activity := .halted, pendingIrq := [8] }) [] [0x90] (fun t =>
      t.eip == 0x0 && t.pendingIrq == [8]) = true := by
  decide +kernel

/-- 95_test_vectors 2.1 R166. -/
theorem test_lock_accepted :
    after ({ start with regs := { start.regs with eax := 0x1, ebx := 0x40 } }) [] [0xF0, 0x01, 0x07] (fun t =>
      bytes t 0x1040 2 == [0x01, 0x00] && t.eip == 0x3) = true := by
  decide +kernel

/-- 95_test_vectors 2.1 R162. -/
theorem test_length_fifteen :
    after (start) [] [0x66, 0x66, 0x66, 0x66, 0x66, 0x66, 0x66, 0x66, 0x66, 0x66, 0x66, 0x66, 0x66, 0x66, 0x90] (fun t =>
      t.eip == 0xF) = true := by
  decide +kernel

/-- 95_test_vectors 2.1 R161. -/
theorem test_sixteenth_byte :
    after (start) [(0x34, [0x00, 0x50, 0x00, 0x01])] [0x66, 0x66, 0x66, 0x66, 0x66, 0x66, 0x66, 0x66, 0x66, 0x66, 0x66, 0x66, 0x66, 0x66, 0x66, 0x90] (fun t =>
      t.eip == 0x5000 && bytes t 0x11FA 2 == [0x00, 0x00]) = true := by
  decide +kernel

/-- 95_test_vectors 2.8 R446. -/
theorem test_jmp_far_protected :
    after (prot0) [] [0x66, 0xEA, 0x00, 0x10, 0x08, 0x00] (fun t =>
      t.eip == 0x1000 && t.segs.cs.sel == 0x8 && t.segs.cs.limit == 0xFFFFFFFF) = true := by
  decide +kernel

/-- 95_test_vectors S4 R105. -/
theorem test_load_ds_last_entry :
    after ({ prot0 with regs := { prot0.regs with eax := 0x10 }, gdtr := { base := 0x2000, limit := 0x17 } }) [] [0x8E, 0xD8] (fun t =>
      t.segs.ds.sel == 0x10 && t.segs.ds.base == 0 && t.eip == 0x1002) = true := by
  decide +kernel

/-- 95_test_vectors S4 R105, R483. -/
theorem test_load_ds_beyond_table :
    after ({ prot0 with regs := { prot0.regs with eax := 0x1B }, gdtr := { base := 0x2000, limit := 0x17 } }) [] [0x8E, 0xD8] (fun t =>
      t.eip == 0x5000 && bytes t 0x7FF8 4 == [0x18, 0x00, 0x00, 0x10] && t.regs.esp == 0x7FF8) = true := by
  decide +kernel

/-- 95_test_vectors S4 R106. -/
theorem test_load_ds_null :
    after ({ prot0 with regs := { prot0.regs with eax := 0x3 } }) [] [0x8E, 0xD8] (fun t =>
      t.segs.ds.sel == 3 && t.segs.ds.valid == false && t.eip == 0x1002) = true := by
  decide +kernel

/-- 95_test_vectors 2.6 R107. -/
theorem test_load_ss_wrong_rpl :
    after ({ prot0 with regs := { prot0.regs with eax := 0x13 } }) [] [0x8E, 0xD0] (fun t =>
      t.eip == 0x5000 && bytes t 0x7FF8 2 == [0x10, 0x00]) = true := by
  decide +kernel

/-- 95_test_vectors 2.6 R365. -/
theorem test_lldt_descriptor :
    after ({ prot0 with regs := { prot0.regs with eax := 0x18 } }) [] [0x0F, 0x00, 0xD0] (fun t =>
      t.ldtr == { sel := 0x18, base := 0x3000, limit := 0xFF, valid := true }) = true := by
  decide +kernel

/-- 95_test_vectors 2.6 R366. -/
theorem test_ltr_descriptor :
    after ({ prot0 with regs := { prot0.regs with eax := 0x20 } }) [] [0x0F, 0x00, 0xD8] (fun t =>
      t.tr == { sel := 0x20, base := 0x4000, limit := 0x67, valid := true, is32 := true }) = true := by
  decide +kernel

/-- R367, by hand from the rule. -/
theorem test_sldt_word :
    after ({ prot0 with regs := { prot0.regs with eax := 0xFFFF0000 }, ldtr := { sel := 0x18, base := 0, limit := 0, valid := true } }) [] [0x66, 0x0F, 0x00, 0xC0] (fun t =>
      t.regs.eax == 0xFFFF0018) = true := by
  decide +kernel

/-- R368, by hand from the rule. -/
theorem test_str_word :
    after ({ prot0 with regs := { prot0.regs with eax := 0xFFFF0000 } }) [] [0x66, 0x0F, 0x00, 0xC8] (fun t =>
      t.regs.eax == 0xFFFF0020) = true := by
  decide +kernel

/-- 95_test_vectors 2.5 R346. -/
theorem test_popf_level_zero :
    after (prot0) [(0x8000, [0x02, 0x32])] [0x66, 0x9D] (fun t =>
      t.eflags == 0x3202) = true := by
  decide +kernel

/-- 95_test_vectors 2.6 R390. -/
theorem test_hlt_level_three :
    after (prot3) [] [0xF4] (fun t =>
      t.eip == 0x5000 && t.cpl == 0 && bytes t 0x8FF4 4 == [0x00, 0x00, 0x00, 0x10]) = true := by
  decide +kernel

/-- 95_test_vectors 2.5 R346. -/
theorem test_popf_level_three :
    after ({ prot3 with eflags := 0x202 }) [(0x8000, [0x00, 0x00])] [0x66, 0x9D] (fun t =>
      t.eflags == 0x202) = true := by
  decide +kernel

/-- 95_test_vectors 2.9 X5c. -/
theorem test_int_closed_gate :
    after (prot3) [] [0xCD, 0x20] (fun t =>
      t.eip == 0x5000 && bytes t 0x8FF4 4 == [0x02, 0x01, 0x00, 0x10]) = true := by
  decide +kernel

/-- R502, R503, by hand from the rule. -/
theorem test_int_open_gate :
    after (prot3) [] [0xCD, 0x03] (fun t =>
      t.eip == 0x6000 && t.cpl == 0 && t.segs.ss.sel == 0x10 && bytes t 0x8FF6 10 == [0x02, 0x10, 0x2B, 0x00, 0x02, 0x00, 0x00, 0x80, 0x33, 0x00]) = true := by
  decide +kernel

/-- 95_test_vectors 2.9 X1. -/
theorem test_interrupt_gate :
    after ({ prot0 with eflags := 0x202, pendingIrq := [0x20] }) [] [0x90] (fun t =>
      t.regs.esp == 0x7FF4 && t.eip == 0x4000 && t.eflags == 2) = true := by
  decide +kernel

/-- 95_test_vectors 2.9 X2. -/
theorem test_trap_gate :
    after ({ prot0 with eflags := 0x202, pendingIrq := [0x20] }) [(0x3105, [0x8F])] [0x90] (fun t =>
      t.eip == 0x4000 && t.eflags == 0x202) = true := by
  decide +kernel

/-- 95_test_vectors 2.9 X3. -/
theorem test_sixteen_bit_gate :
    after ({ prot0 with eflags := 0x202, pendingIrq := [0x20] }) [(0x3105, [0x86])] [0x90] (fun t =>
      bytes t 0x7FFA 6 == [0x00, 0x10, 0x08, 0x00, 0x02, 0x02] && t.regs.esp == 0x7FFA && t.eip == 0x4000) = true := by
  decide +kernel

/-- 95_test_vectors 2.9 X5. -/
theorem test_int_beyond_idt :
    after ({ prot0 with idtr := { base := 0x3000, limit := 0xFF } }) [] [0xCD, 0x20] (fun t =>
      t.eip == 0x5000 && bytes t 0x7FF8 4 == [0x02, 0x01, 0x00, 0x10]) = true := by
  decide +kernel

/-- 95_test_vectors 2.9 X5b. -/
theorem test_interrupt_beyond_idt :
    after ({ prot0 with eflags := 0x202, pendingIrq := [0x20], idtr := { base := 0x3000, limit := 0xFF } }) [] [0x90] (fun t =>
      t.eip == 0x5000 && bytes t 0x7FF8 4 == [0x03, 0x01, 0x00, 0x10]) = true := by
  decide +kernel

/-- 95_test_vectors S5 R132. -/
theorem test_page_fault_write :
    after (paged0) [] [0xA3, 0x08, 0x50, 0x00, 0x00] (fun t =>
      t.cr2 == 0x5008 && t.eip == 0x7000 && bytes t 0xBFF8 4 == [0x02, 0x00, 0x00, 0x10]) = true := by
  decide +kernel

/-- 95_test_vectors S5 R130. -/
theorem test_page_write_translated :
    after ({ paged0 with regs := { paged0.regs with eax := 0x11223344 } }) [] [0xA3, 0x08, 0x60, 0x00, 0x00] (fun t =>
      bytes t 0xA008 4 == [0x44, 0x33, 0x22, 0x11] && t.eip == 0x1005) = true := by
  decide +kernel
end Sys2Proof.Tests
end

section
/-! PROOF. Fetching and decoding do not see what memory accesses do not read: from states that agree, a fetch gives the same
bytes and the same stop, and leaves states that agree, also where its page walks write (20_memory R134, 30_encoding R161). -/

namespace Sys2Proof.Machine

theorem Agree.paging {s t : State} (h : Agree s t) : t.paging = s.paging := by
  simp only [State.paging, h.cr0]

variable {α β : Type}

/-- The same value on states that agree, or the same stop. -/
inductive AgreeOutcome : Except Stop (α × State) → Except Stop (α × State) → Prop
  | ok (a : α) {s t : State} (h : Agree s t) : AgreeOutcome (.ok (a, s)) (.ok (a, t))
  | error (e : Stop) : AgreeOutcome (.error e) (.error e)

/-- A computation that reads nothing but what memory accesses read. -/
def RunsAlike (x : Exec α) : Prop :=
  ∀ s t, Agree s t → AgreeOutcome (x s) (x t)

namespace RunsAlike

theorem pure (a : α) : RunsAlike (Pure.pure a : Exec α) := fun _ _ h => .ok a h

theorem check (b : Bool) (e : Stop) : RunsAlike (check b e) := by
  intro s t h
  cases b
  · exact .error e
  · exact .ok () h

theorem bind {x : Exec α} {f : α → Exec β} (hx : RunsAlike x) (hf : ∀ a, RunsAlike (f a)) : RunsAlike (x >>= f) := by
  intro s t h
  rw [bind_run, bind_run]
  have hxs := hx s t h
  generalize x s = y, x t = z at hxs
  cases hxs with
  | ok a h => exact hf a _ _ h
  | error e => exact .error e

/-- What a computation reads off the state at its start is the same in states that agree. -/
theorem getBind {f : State → Exec β} (hread : ∀ s t, Agree s t → f t = f s) (hf : ∀ s, RunsAlike (f s)) :
    RunsAlike (get >>= f) := by
  intro s t h
  rw [bind_run, bind_run, get_run, get_run]
  simp only [hread s t h]
  exact hf s s t h

theorem ite {c : Prop} [Decidable c] {x y : Exec α} (hx : RunsAlike x) (hy : RunsAlike y) :
    RunsAlike (if c then x else y) := by
  split
  · exact hx
  · exact hy

theorem physRead (a : Word) : RunsAlike (physRead a) :=
  .getBind (fun s t h => by rw [h.params, h.mem]) fun _ => .bind (.check _ _) fun _ => .pure _

theorem physReads (as : List Word) : RunsAlike (physReads as) := by
  induction as with
  | nil => exact .pure _
  | cons a as ih => exact .bind (.physRead a) fun _ => .bind ih fun _ => .pure _

theorem physWrite (a : Word) (v : Byte) : RunsAlike (physWrite a v) := by
  intro s t h
  simp only [Machine.physWrite, bind_run, get_run, h.params, h.mem]
  cases decide (a.toNat < s.params.memSize)
  · exact .error _
  · exact .ok _ ⟨h.cr0, h.cr3, rfl, rfl, h.segs⟩

theorem physWrites (as : List Word) (bs : List Byte) : RunsAlike (physWrites as bs) := by
  induction as generalizing bs with
  | nil => exact .pure _
  | cons a as ih =>
    cases bs with
    | nil => exact .pure _
    | cons b bs => exact .bind (.physWrite a b) fun _ => ih bs

theorem memRead (a : Word) (n : Nat) : RunsAlike (memRead a n) :=
  .bind (.physReads _) fun _ => .pure _

theorem setEntry (done : Bool) (entry v : Word) : RunsAlike (setEntry done entry v) :=
  .ite (.pure _) (.physWrites _ _)

theorem markAccessed (pdeAt pde pteAt pte : Word) (acc : Access) : RunsAlike (markAccessed pdeAt pde pteAt pte acc) :=
  .getBind (fun s t h => by rw [h.params]) fun _ =>
    .ite (.bind (.setEntry _ _ _) fun _ => .setEntry _ _ _) (.pure _)

theorem translate (acc : Access) (user : Bool) (lin : Word) : RunsAlike (translate acc user lin) :=
  .getBind (fun s t h => by rw [h.paging, h.cr3, h.params]) fun _ =>
    .ite (.bind (.memRead _ _) fun _ => .bind (.check _ _) fun _ => .bind (.memRead _ _) fun _ =>
      .bind (.check _ _) fun _ => .bind (.check _ _) fun _ => .bind (.markAccessed _ _ _ _ _) fun _ => .pure _)
      (.pure _)

theorem translates (acc : Access) (user : Bool) (as : List Word) : RunsAlike (translates acc user as) := by
  induction as with
  | nil => exact .pure _
  | cons a as ih => exact .bind (.translate _ _ a) fun _ => .bind ih fun _ => .pure _

theorem linRead (acc : Access) (user : Bool) (lin : Word) (n : Nat) : RunsAlike (linRead acc user lin n) :=
  .bind (.translates _ _ _) fun _ => .bind (.physReads _) fun _ => .pure _

theorem checkRights (r : SReg) (g : Segment) (acc : Access) : RunsAlike (checkRights r g acc) := by
  cases acc with
  | read => exact .bind (.check _ _) fun _ => .check _ _
  | write => exact .check _ _
  | fetch => exact .pure _

theorem checkSegment (r : SReg) (off : Word) (n : Nat) (acc : Access) : RunsAlike (checkSegment r off n acc) :=
  .getBind (fun s t h => by rw [h.seg, h.pe]) fun _ =>
    .bind (.check _ _) fun _ => .ite (.checkRights _ _ _) (.pure _)

theorem fetchByte (off : Word) : RunsAlike (fetchByte off) :=
  .bind (.checkSegment _ _ _ _) fun _ =>
    .getBind (fun s t h => by rw [h.user, h.segs]) fun _ => .bind (.linRead _ _ _ _) fun _ => .pure _

end RunsAlike

theorem fetchAvail_agree {s t : State} (h : Agree s t) (n : Nat) (off : Word) :
    fetchAvail n off t = fetchAvail n off s := by
  induction n generalizing s t off with
  | zero => rfl
  | succ n ih =>
    have hb := RunsAlike.fetchByte off s t h
    unfold fetchAvail
    generalize fetchByte off s = x, fetchByte off t = y at hb
    cases hb with
    | ok b h' => simp only [ih h']
    | error e => rfl

/-- The instruction at CS:EIP is read from segments, control registers, parameters and memory. -/
theorem State.decoded_agree {s t : State} (h : Agree s t) (heip : t.eip = s.eip) : t.decoded = s.decoded := by
  simp only [State.decoded, State.fetched, heip, fetchAvail_agree h, h.pe, h.segs]

end Sys2Proof.Machine
end

section
/-! PROOF. How a step that ends the run ends it (00_scope R8, R16; 60_exceptions R496, R508, R521, R526): which step each kind
of boundary takes, the state that a stop of it leaves, and the latch of a run. -/

namespace Sys2Proof.Machine

/-! ### The step each boundary takes -/

theorem step_of_latched {s : State} {r : Fatal} (hf : s.fatal = some r) : step s = .refused (.fatalLatch r) := by
  simp [step, iteration, hf]

theorem step_of_interrupt {s : State} {v : Byte} {rest : List Byte} (hf : s.fatal = none) (hi : s.flag .intf = true)
    (hq : s.pendingIrq = v :: rest) : step s = closeStep (takeInterrupt v rest s) := by
  simp [step, iteration, hf, hi, hq]

theorem step_of_noInterrupt {s : State} (hf : s.fatal = none) (hi : s.flag .intf = false ∨ s.pendingIrq = []) :
    step s = if s.activity = .halted then .next s else closeStep (executeStep s) := by
  unfold step iteration
  rw [hf]
  rcases hi with hi | hi <;> simp [hi]

theorem step_of_running {s : State} (hf : s.fatal = none) (hi : s.flag .intf = false ∨ s.pendingIrq = [])
    (ha : s.activity = .running) : step s = closeStep (executeStep s) := by
  simp [step_of_noInterrupt hf hi, ha]

/-- At a boundary that fetches, the step is one instruction with its trap. -/
theorem step_of_fetches {s : State} (h : s.fetches = true) : step s = closeStep (runStep s) := by
  simp only [State.fetches, Bool.and_eq_true, beq_iff_eq, Bool.not_eq_true', Bool.and_eq_false_iff,
    Bool.not_eq_false', List.isEmpty_iff] at h
  obtain ⟨⟨⟨hf, hi⟩, ha⟩, hslot⟩ := h
  rw [step_of_running hf hi ha, executeStep]
  cases hp : fetchAddress s.eip s with
  | ok v =>
    rw [hp] at hslot
    exact congrArg closeStep (if_neg (by simpa using hslot))
  | error e => rfl

theorem runStep_of_decoded {s : State} {c : Ctx} {i : Instr} {rest : List Byte} (h : s.decoded = .ok c i rest) :
    runStep s = trapStep (exec i { s with tfAtStart := s.flag .tf, ctx := c }) := by
  have hd : State.decoded { s with tfAtStart := s.flag .tf } = s.decoded :=
    State.decoded_agree ⟨rfl, rfl, rfl, rfl, rfl⟩ rfl
  simp only [runStep, instrStep, hd, h]

theorem fetchAddress_run {s : State} {off p : Word} (h : s.plainWalks = true) (hb : s.segs.cs.inBounds off 1 = true)
    (hp : s.phys .fetch s.user (s.linear .cs off) = some p) : fetchAddress off s = .ok (p, s) := by
  have hseg : checkSegment .cs off 1 .fetch s = .ok ((), s) := by
    have hb' : (s.seg .cs).inBounds off 1 = true := hb
    simp only [checkSegment, bind_run, get_run, hb', check_true, checkRights, ite_self, pure_run]
  simp only [fetchAddress, bind_run, hseg, get_run]
  exact translate_run h hp

theorem executeStep_of_slot {s : State} {p : Word} (h : s.plainWalks = true) (hb : s.segs.cs.inBounds s.eip 1 = true)
    (hp : s.phys .fetch s.user (s.linear .cs s.eip) = some p) (hc : s.params.callbackSlots.contains p = true) :
    executeStep s = callbackStep p s := by
  simp only [executeStep, fetchAddress_run h hb hp, hc, if_true]

/-! ### The state a stop leaves -/

/-- Every instruction is a body on a working copy that is committed or discarded as a whole. -/
theorem exec_eq_runInstr (i : Instr) (s : State) : ∃ body, exec i s = runInstr body s := by
  cases i <;> exact ⟨_, rfl⟩

theorem exec_left {i : Instr} {s u : State} (hd : s.depth = 0) (h : stopLeft (exec i s) = some u) :
    u = { s with cr2 := u.cr2 } := by
  obtain ⟨body, e⟩ := exec_eq_runInstr i s
  exact runInstr_left hd (e ▸ h)

/-- A closed step ends the run exactly where the step it closes does, at the boundary. -/
theorem stopLeft_closeStep_iff {x : Step} {u : State} :
    stopLeft (closeStep x) = some u ↔ ∃ t, stopLeft x = some t ∧ t.atBoundary = u := by
  rw [stopLeft_closeStep, Option.map_eq_some_iff]

/-- A single-step trap that ends the run leaves the committed instruction. -/
theorem trapStep_next_left {t u : State} (h : stopLeft (trapStep (.next t)) = some u) :
    u = { t with cr2 := u.cr2, depth := 0 } := by
  obtain hn | ⟨t', ht, hu⟩ := trapStep_left h
  · cases hn
  · cases ht; exact hu

/-- An interrupt that ends the run is off the queue, and the core runs. -/
theorem takeInterrupt_left {v : Byte} {rest : List Byte} {s u : State}
    (h : stopLeft (takeInterrupt v rest s) = some u) :
    u = { s with pendingIrq := rest, activity := .running, cr2 := u.cr2, depth := 0 } := by
  simp only [takeInterrupt] at h
  split at h
  · cases h
  · exact deliverEvent_left h

@[simp] theorem State.hostWrite_depth (s : State) (w : HostWrite) : (s.hostWrite w).depth = s.depth := by
  cases w with
  | byte a v => simp only [State.hostWrite]; split <;> rfl
  | _ => simp [State.hostWrite]

theorem State.foldl_hostWrite_depth (ws : List HostWrite) (s : State) :
    (ws.foldl State.hostWrite s).depth = s.depth := by
  induction ws generalizing s with
  | nil => rfl
  | cons w ws ih => rw [List.foldl_cons, ih, State.hostWrite_depth]

@[simp] theorem State.hostCall_depth (s : State) (e : HostEvent) : (s.hostCall e).depth = s.depth :=
  State.foldl_hostWrite_depth _ _

/-- A callback whose return ends the run leaves the writes of the host call. -/
theorem callbackStep_left {slot : Word} {s u : State} (hd : s.depth = 0)
    (h : stopLeft (callbackStep slot s) = some u) : u = { s.hostCall (.callback slot) with cr2 := u.cr2 } := by
  have ht : (s.hostCall (.callback slot)).depth = 0 := by rw [State.hostCall_depth, hd]
  obtain hu | rfl := settle_left h
  · rw [← ht] at hu; exact hu
  · rfl

/-! ### A step that does not complete leaves a state -/

/-- The step completes, or ends the run and says what it leaves. -/
def EndsInState (x : Step) : Prop :=
  (∃ t, x = .next t) ∨ ∃ u, stopLeft x = some u

theorem EndsInState.next (t : State) : EndsInState (.next t) := .inl ⟨t, rfl⟩

theorem EndsInState.abortOutcome (a : Abort) (s : State) : EndsInState (abortOutcome a s) :=
  .inr ⟨s, stopLeft_abortOutcome a s⟩

theorem EndsInState.deliverNested (r : Raised) (ret : Word) (s : State) : EndsInState (deliverNested r ret s) := by
  simp only [Machine.deliverNested]
  split
  · exact .next _
  · exact .abortOutcome _ _
  · exact .inr ⟨_, rfl⟩

theorem EndsInState.deliverEvent (vec : Byte) (src : Source) (err : Option Half) (ret : Word) (s : State) :
    EndsInState (deliverEvent vec src err ret s) := by
  simp only [Machine.deliverEvent]
  split
  · exact .next _
  · exact .abortOutcome _ _
  · exact .deliverNested _ _ _

theorem EndsInState.settle (s : State) (ret : Word) (r : Except Stop (Unit × State)) :
    EndsInState (settle s ret r) := by
  unfold Machine.settle
  split
  · exact .next _
  · exact .abortOutcome _ _
  · exact .deliverEvent _ _ _ _ _

theorem EndsInState.exec (i : Instr) (s : State) : EndsInState (exec i s) := by
  obtain ⟨body, e⟩ := exec_eq_runInstr i s
  rw [e]
  exact .settle _ _ _

theorem EndsInState.instrStep (s : State) : EndsInState (instrStep s) := by
  unfold Machine.instrStep
  split
  · exact .exec _ _
  · exact .abortOutcome _ _
  · exact .settle _ _ _

theorem EndsInState.trapStep {x : Step} (h : EndsInState x) : EndsInState (trapStep x) := by
  obtain ⟨t, rfl⟩ | ⟨u, hu⟩ := h
  · simp only [Machine.trapStep]
    split
    · exact .deliverEvent _ _ _ _ _
    · exact .next _
  · cases x with
    | next t => cases hu
    | fault f => exact .inr ⟨u, hu⟩
    | refused r => exact .inr ⟨u, hu⟩

theorem EndsInState.closeStep {x : Step} (h : EndsInState x) : EndsInState (closeStep x) := by
  obtain ⟨t, rfl⟩ | ⟨u, hu⟩ := h
  · exact .next _
  · exact .inr ⟨u.atBoundary, stopLeft_closeStep_iff.2 ⟨u, hu, rfl⟩⟩

theorem EndsInState.takeInterrupt (v : Byte) (rest : List Byte) (s : State) :
    EndsInState (takeInterrupt v rest s) := by
  simp only [Machine.takeInterrupt]
  split
  · exact .next _
  · exact .deliverEvent _ _ _ _ _

theorem EndsInState.executeStep (s : State) : EndsInState (executeStep s) := by
  have hrun : EndsInState (runStep s) := .trapStep (.instrStep _)
  unfold Machine.executeStep
  split
  · split
    · exact .settle _ _ _
    · exact hrun
  · exact hrun

/-- Only a latched reason is refused with no state (10_state R56). -/
theorem step_endsInState {s : State} (hf : s.fatal = none) : EndsInState (step s) := by
  by_cases hi : s.flag .intf = false ∨ s.pendingIrq = []
  · rw [step_of_noInterrupt hf hi]
    split
    · exact .next _
    · exact .closeStep (.executeStep _)
  · obtain ⟨hflag, hq⟩ := not_or.1 hi
    obtain ⟨v, rest, hq⟩ := List.exists_cons_of_ne_nil hq
    rw [step_of_interrupt hf (Bool.eq_true_of_not_eq_false hflag) hq]
    exact .closeStep (.takeInterrupt _ _ _)

/-! ### The latch of a run -/

/-- An iteration that ends the run leaves its reason latched (10_state R56). -/
theorem iterate_fatal {s t : State} {r : Fatal} (h : s.iterate = (t, some r)) : t.fatal = some r := by
  cases hf : s.fatal with
  | some r' =>
    simp only [State.iterate, step_of_latched hf] at h
    cases h
    exact hf
  | none =>
    obtain ⟨t', ht⟩ | ⟨u, hu⟩ := step_endsInState hf
    · rw [iterate_next ht] at h; cases h
    · obtain ⟨r', hr⟩ := iterate_stop hu
      rw [hr] at h; cases h; rfl

theorem runBudget_succ_of_iterate_stop {s t : State} {r : Fatal} (h : s.iterate = (t, some r)) (k : Nat) :
    s.runBudget (k + 1) = (t, some r) := by
  simp [State.runBudget, h]

theorem runBudget_succ_of_iterate_next {s t : State} (h : s.iterate = (t, none)) (k : Nat) :
    s.runBudget (k + 1) = t.runBudget k := by
  simp [State.runBudget, h]

/-- A run that ends with a reason leaves it latched (00_scope R8, 70_reset_and_hazards R556). -/
theorem runBudget_fatal {s t : State} {k : Nat} {r : Fatal} (h : s.runBudget k = (t, some r)) : t.fatal = some r := by
  induction k generalizing s with
  | zero =>
    obtain ⟨rfl, hf⟩ := Prod.mk.inj h
    exact hf
  | succ k ih =>
    rcases hs : s.iterate with ⟨t', _ | r'⟩
    · exact ih (runBudget_succ_of_iterate_next hs k ▸ h)
    · rw [runBudget_succ_of_iterate_stop hs] at h
      cases h
      exact iterate_fatal hs

theorem runBudget_add (s : State) (k m : Nat) : s.runBudget (k + m) = (s.runBudget k).1.runBudget m := by
  induction k generalizing s with
  | zero => rw [Nat.zero_add]; rfl
  | succ k ih =>
    rw [Nat.add_right_comm]
    rcases hs : s.iterate with ⟨t, _ | r⟩
    · rw [runBudget_succ_of_iterate_next hs, runBudget_succ_of_iterate_next hs, ih]
    · rw [runBudget_succ_of_iterate_stop hs, runBudget_succ_of_iterate_stop hs, runBudget_latched (iterate_fatal hs)]

/-! ### What a step that ends the run leaves, by kind of boundary -/

theorem step_trap_left {s t u : State} {c : Ctx} {i : Instr} {rest : List Byte} (hs : s.fetches = true)
    (hd : s.decoded = .ok c i rest) (hx : exec i { s with tfAtStart := s.flag .tf, ctx := c } = .next t)
    (h : stopLeft (step s) = some u) : u = { t.atBoundary with cr2 := u.cr2, depth := 0 } := by
  rw [step_of_fetches hs, runStep_of_decoded hd, hx] at h
  obtain ⟨v, hv, rfl⟩ := stopLeft_closeStep_iff.1 h
  exact congrArg State.atBoundary (trapStep_next_left hv)

theorem step_interrupt_left {s u : State} {v : Byte} {rest : List Byte} (hf : s.fatal = none)
    (hi : s.flag .intf = true) (hq : s.pendingIrq = v :: rest) (h : stopLeft (step s) = some u) :
    u = { s.atBoundary with pendingIrq := rest, activity := .running, cr2 := u.cr2, depth := 0 } := by
  rw [step_of_interrupt hf hi hq] at h
  obtain ⟨w, hw, rfl⟩ := stopLeft_closeStep_iff.1 h
  exact congrArg State.atBoundary (takeInterrupt_left hw)

theorem step_callback_left {s u : State} {p : Word} (hw : s.plainWalks = true) (hf : s.fatal = none)
    (hi : s.flag .intf = false ∨ s.pendingIrq = []) (ha : s.activity = .running) (hd : s.depth = 0)
    (hb : s.segs.cs.inBounds s.eip 1 = true) (hp : s.phys .fetch s.user (s.linear .cs s.eip) = some p)
    (hc : s.params.callbackSlots.contains p = true) (h : stopLeft (step s) = some u) :
    u = { (s.hostCall (.callback p)).atBoundary with cr2 := u.cr2 } := by
  rw [step_of_running hf hi ha, executeStep_of_slot hw hb hp hc] at h
  obtain ⟨v, hv, rfl⟩ := stopLeft_closeStep_iff.1 h
  exact congrArg State.atBoundary (callbackStep_left hd hv)

/-- Settles O60: a stop of an instruction, a trap, an interrupt or a callback return comes from the settling or the delivery
of that one transaction, which leaves its start state but for CR2 and the depth; every step from a state with no latched
reason completes or leaves a state, so a run that ends has its reason latched. -/
theorem stopsLeaveWhatWasCommitted : Obligations.StopsLeaveWhatWasCommitted := by
  unfold Obligations.StopsLeaveWhatWasCommitted
  refine ⟨fun _ _ _ => exec_left, fun _ _ _ _ _ _ => step_trap_left, fun _ _ _ _ => step_interrupt_left, ?_, ?_, ?_,
    runBudget_add⟩
  · intro s p hw hf hi ha hd hb hp hc
    cases h : stopLeft (step s) with
    | none => exact .inl rfl
    | some u => exact .inr ⟨u.cr2, congrArg some (step_callback_left hw hf hi ha hd hb hp hc h)⟩
  · refine fun s u k => ⟨fun h => ?_, fun h => ?_, fun why h => ?_⟩ <;>
      exact runBudget_succ_of_iterate_stop (by rw [State.iterate, h]) k
  · intro s t k r h
    have hf := runBudget_fatal h
    exact ⟨hf, runBudget_latched hf⟩

end Sys2Proof.Machine
end

section
/-! PROOF. With paging off nothing raises a page fault: what each operation stops with carries no value for CR2, and paging
stays off (20_memory R130, R132). -/
namespace Sys2Proof.Machine

variable {α β : Type}

/-- The value of CR2 that a stop carries: that of a page fault (20_memory R132). -/
def Stop.cr2 : Stop → Option Word
  | .raise r => r.cr2
  | .fatal _ => none

/-- With paging off, whatever the computation stops with writes no CR2. -/
def RaisesNoPageFault (x : Exec α) : Prop :=
  ∀ s e, s.paging = false → x s = .error e → e.cr2 = none

/-- With paging off, the computation raises no page fault and leaves paging off. -/
def Unpaged (x : Exec α) : Prop :=
  RaisesNoPageFault x ∧ Keeps (fun s t => s.paging = false → t.paging = false) x

theorem bind_error {x : Exec α} {f : α → Exec β} {s : State} {e : Stop} (h : (x >>= f) s = .error e) :
    x s = .error e ∨ ∃ a t, x s = .ok (a, t) ∧ f a t = .error e := by
  rw [bind_run] at h
  split at h
  · exact .inr ⟨_, _, by assumption, h⟩
  · cases h; exact .inl (by assumption)

theorem RaisesNoPageFault.bind {x : Exec α} {f : α → Exec β} (hx : Unpaged x) (hf : ∀ a, RaisesNoPageFault (f a)) :
    RaisesNoPageFault (x >>= f) := by
  intro s e hp h
  obtain h | ⟨a, t, h1, h2⟩ := bind_error h
  · exact hx.1 s e hp h
  · exact hf a t e (hx.2 s a t h1 hp) h2

theorem RaisesNoPageFault.ite {c : Prop} [Decidable c] {x y : Exec α} (hx : RaisesNoPageFault x)
    (hy : RaisesNoPageFault y) : RaisesNoPageFault (if c then x else y) := by
  split
  · exact hx
  · exact hy

theorem preserved_pagingOff : Preserved (fun s t => s.paging = false → t.paging = false) :=
  ⟨fun _ h => h, fun _ _ _ h k hs => k (h hs)⟩

namespace Unpaged

theorem quiet {x : Exec α} (h : Unpaged x) : RaisesNoPageFault x := h.1

theorem pure (a : α) : Unpaged (Pure.pure a : Exec α) :=
  ⟨fun _ _ _ h => (by cases h), .pure preserved_pagingOff a⟩

theorem get : Unpaged (MonadState.get : Exec State) :=
  ⟨fun _ _ _ h => (by cases h), .get preserved_pagingOff⟩

theorem check (b : Bool) {e : Stop} (he : e.cr2 = none) : Unpaged (check b e) := by
  refine ⟨fun s e' _ h => ?_, .check preserved_pagingOff b e⟩
  cases b <;> cases h
  exact he

theorem modify {f : State → State} (hf : ∀ s, (f s).cr0 = s.cr0) : Unpaged (modify f : Exec PUnit) :=
  ⟨fun _ _ _ h => (by cases h), .modify fun s hs => by rw [State.paging, hf]; exact hs⟩

theorem bind {x : Exec α} {f : α → Exec β} (hx : Unpaged x) (hf : ∀ a, Unpaged (f a)) : Unpaged (x >>= f) :=
  ⟨.bind hx fun a => (hf a).1, .bind preserved_pagingOff hx.2 fun a => (hf a).2⟩

theorem ite {c : Prop} [Decidable c] {x y : Exec α} (hx : Unpaged x) (hy : Unpaged y) :
    Unpaged (if c then x else y) := by
  split
  · exact hx
  · exact hy

theorem physRead (a : Word) : Unpaged (physRead a) :=
  .bind .get fun _ => .bind (.check _ rfl) fun _ => .pure _

theorem physReads (as : List Word) : Unpaged (physReads as) := by
  induction as with
  | nil => exact .pure _
  | cons a as ih => exact .bind (.physRead a) fun _ => .bind ih fun _ => .pure _

theorem physWrite (a : Word) (v : Byte) : Unpaged (physWrite a v) := by
  refine ⟨?_, physWrite_keeps (R := fun s t => s.paging = false → t.paging = false) (fun _ _ _ _ h => h) a v⟩
  refine .bind .get fun s => .bind (.check _ rfl) fun _ => fun _ _ _ h => ?_
  cases h

theorem physWrites (as : List Word) (bs : List Byte) : Unpaged (physWrites as bs) := by
  induction as generalizing bs with
  | nil => exact .pure _
  | cons a as ih =>
    cases bs with
    | nil => exact .pure _
    | cons b bs => exact .bind (.physWrite a b) fun _ => ih bs

/-- With paging off a linear address is a physical one, and nothing is walked (20_memory R130). -/
theorem translate (acc : Access) (user : Bool) (lin : Word) : Unpaged (translate acc user lin) := by
  have hrun : ∀ s : State, s.paging = false → Machine.translate acc user lin s = .ok (lin, s) := fun s hp => by
    simp [Machine.translate, bind_run, hp]
  exact ⟨fun s e hp h => (by rw [hrun s hp] at h; cases h),
    translate_keeps preserved_pagingOff (fun _ _ _ _ _ h => h) acc user lin⟩

theorem translates (acc : Access) (user : Bool) (as : List Word) : Unpaged (translates acc user as) := by
  induction as with
  | nil => exact .pure _
  | cons a as ih => exact .bind (.translate _ _ a) fun _ => .bind ih fun _ => .pure _

theorem linRead (acc : Access) (user : Bool) (lin : Word) (n : Nat) : Unpaged (linRead acc user lin n) :=
  .bind (.translates _ _ _) fun _ => .bind (.physReads _) fun _ => .pure _

theorem linWrite (user : Bool) (lin : Word) (n v : Nat) : Unpaged (linWrite user lin n v) :=
  .bind (.translates _ _ _) fun _ => .physWrites _ _

theorem segmentFault_cr2 (r : SReg) : (segmentFault r).cr2 = none := by
  unfold segmentFault
  split <;> rfl

theorem checkSegment (r : SReg) (off : Word) (n : Nat) (acc : Access) : Unpaged (checkSegment r off n acc) := by
  refine .bind .get fun s => .bind (.check _ (segmentFault_cr2 r)) fun _ => .ite ?_ (.pure _)
  cases acc with
  | read => exact .bind (.check _ (segmentFault_cr2 r)) fun _ => .check _ rfl
  | write => exact .check _ (segmentFault_cr2 r)
  | fetch => exact .pure _

theorem segRead (r : SReg) (off : Word) (n : Nat) : Unpaged (segRead r off n) :=
  .bind (.checkSegment _ _ _ _) fun _ => .bind .get fun _ => .linRead _ _ _ _

theorem segWrite (r : SReg) (off : Word) (n v : Nat) : Unpaged (segWrite r off n v) :=
  .bind (.checkSegment _ _ _ _) fun _ => .bind .get fun _ => .linWrite _ _ _ _

theorem checkPresent (as : List Word) : Unpaged (checkPresent as) := by
  induction as with
  | nil => exact .pure _
  | cons a as ih => exact .bind .get fun _ => .bind (.check _ rfl) fun _ => ih

theorem checkSegWrite (r : SReg) (off : Word) (n : Nat) : Unpaged (checkSegWrite r off n) :=
  .bind (.checkSegment _ _ _ _) fun _ => .bind .get fun _ => .bind (.translates _ _ _) fun _ => .checkPresent _

theorem fetchBytes (n : Nat) (off : Word) : Unpaged (fetchBytes n off) := by
  induction n generalizing off with
  | zero => exact .pure _
  | succ n ih =>
    exact .bind (.bind (.checkSegment _ _ _ _) fun _ => .bind .get fun _ => .bind (.linRead _ _ _ _) fun _ => .pure _)
      fun _ => ih _

theorem touchFetch : Unpaged touchFetch :=
  .bind .get fun _ => .ite (.fetchBytes _ _) (.pure _)

theorem draw : Unpaged draw :=
  ⟨fun _ _ _ h => (by cases h), draw_keeps fun _ h => h⟩

theorem writeReg (w : Size) (r : Reg) (v : BitVec w.bits) : Unpaged (writeReg w r v) :=
  .modify fun _ => by simp

theorem modifyFlags (f : Word → Word) : Unpaged (modifyFlags f) :=
  .modify fun _ => rfl

theorem advance : Unpaged advance :=
  .modify fun _ => rfl

theorem readLoc (w : Size) (l : Loc) : Unpaged (readLoc w l) := by
  cases l with
  | reg r => exact .bind .get fun _ => .pure _
  | mem r off => exact .bind (.segRead _ _ _) fun _ => .pure _

theorem writeLoc (w : Size) (l : Loc) (v : BitVec w.bits) : Unpaged (writeLoc w l v) := by
  cases l with
  | reg r => exact .writeReg _ _ _
  | mem r off => exact .segWrite _ _ _ _

theorem readRM (w : Size) (rm : RM) : Unpaged (readRM w rm) :=
  .bind .get fun _ => .readLoc _ _

theorem writeRM (w : Size) (rm : RM) (v : BitVec w.bits) : Unpaged (writeRM w rm v) :=
  .bind .get fun _ => .writeLoc _ _ _

theorem push (n v : Nat) : Unpaged (push n v) :=
  .bind .get fun _ => .bind (.segWrite _ _ _ _) fun _ => .modify fun _ => by simp

theorem pop (n : Nat) : Unpaged (pop n) :=
  .bind .get fun _ => .bind (.segRead _ _ _) fun _ => .bind (.modify fun _ => by simp) fun _ => .pure _

theorem release (iw : Half) : Unpaged (release iw) :=
  .modify fun _ => by simp [State.setStackPointer_cr0]

theorem selImage (n : Nat) (sel : Half) : Unpaged (selImage n sel) :=
  .ite (.bind .draw fun _ => .pure _) (.pure _)

theorem readDescriptor (sel : Half) (vec : Byte) (ext : Bool) : Unpaged (readDescriptor sel vec ext) :=
  .bind .get fun _ => .bind (.check _ rfl) fun _ => .bind (.check _ rfl) fun _ =>
    .bind (.linRead _ _ _ _) fun _ => .pure _

theorem markDescriptor (sel : Half) (d : Desc) (mask : Byte) : Unpaged (markDescriptor sel d mask) :=
  .bind .get fun _ => .ite (.linWrite _ _ _ _) (.pure _)

theorem setEip (v : Word) : Unpaged (setEip v) :=
  .modify fun _ => rfl

theorem readReg (w : Size) (r : Reg) : Unpaged (readReg w r) :=
  .bind .get fun _ => .pure _

/-! #### Segment loads, transfers and deliveries -/

theorem loadDataSeg (r : SReg) (sel : Half) : Unpaged (loadDataSeg r sel) :=
  .bind .get fun _ => .ite (.modify fun _ => rfl)
    (.bind (.readDescriptor _ _ _) fun _ => .bind (.check _ rfl) fun _ => .bind (.check _ rfl) fun _ =>
      .bind (.check _ rfl) fun _ => .bind (.check _ rfl) fun _ => .bind (.modify fun _ => rfl) fun _ =>
      .markDescriptor _ _ _)

theorem loadSS (sel : Half) : Unpaged (loadSS sel) :=
  .bind .get fun _ => .bind (.check _ rfl) fun _ => .bind (.readDescriptor _ _ _) fun _ =>
    .bind (.check _ rfl) fun _ => .bind (.check _ rfl) fun _ => .bind (.check _ rfl) fun _ =>
    .bind (.check _ rfl) fun _ => .bind (.modify fun _ => rfl) fun _ => .markDescriptor _ _ _

theorem loadSReg (r : SReg) (sel : Half) : Unpaged (loadSReg r sel) :=
  .bind .get fun _ => .ite (.ite (.loadSS _) (.loadDataSeg _ _)) (.modify fun _ => rfl)

theorem nearTarget (osz : Size) (t : Word) : Unpaged (nearTarget osz t) :=
  .bind .get fun _ => .bind (.check _ rfl) fun _ => .setEip _

theorem checkFarTarget (sel : Half) (off : Word) : Unpaged (checkFarTarget sel off) :=
  .bind .get fun _ => .bind (.check _ rfl) fun _ => .bind (.readDescriptor _ _ _) fun _ =>
    .bind (.check _ rfl) fun _ => .bind (.check _ rfl) fun _ => .bind (.check _ rfl) fun _ =>
    .bind (.check _ rfl) fun _ => .bind (.check _ rfl) fun _ => .bind (.check _ rfl) fun _ => .pure _

theorem farTransfer (osz : Size) (sel : Half) (off : Word) {between : Exec Unit} (hb : Unpaged between) :
    Unpaged (farTransfer osz sel off between) :=
  .bind .get fun _ => .ite
    (.bind (.checkFarTarget _ _) fun _ => .bind hb fun _ => .bind (.modify fun _ => rfl) fun _ =>
      .markDescriptor _ _ _)
    (.bind (.check _ rfl) fun _ => .bind hb fun _ => .modify fun _ => rfl)

theorem pushReturn (osz : Size) : Unpaged (pushReturn osz) :=
  .bind .get fun _ => .bind (.selImage _ _) fun _ => .bind (.push _ _) fun _ => .push _ _

theorem readFarPointer (osz : Size) (m : MemOp) : Unpaged (readFarPointer osz m) :=
  .bind .get fun _ => .bind (.segRead _ _ _) fun _ => .pure _

theorem stackSegFor (sel : Half) (lvl : BitVec 2) (vec : Byte) (ext : Bool) : Unpaged (stackSegFor sel lvl vec ext) :=
  .bind (.check _ rfl) fun _ => .bind (.readDescriptor _ _ _) fun _ => .bind (.check _ rfl) fun _ =>
    .bind (.check _ rfl) fun _ => .pure _

theorem outwardReturn (osz : Size) (cs : Segment) (off : Word) (lvl : BitVec 2) (iw : Half) :
    Unpaged (outwardReturn osz cs off lvl iw) :=
  .bind (.pop _) fun _ => .bind (.pop _) fun _ => .bind (.stackSegFor _ _ _ _) fun _ =>
    .bind (.modify fun _ => rfl) fun _ => .bind (.modify fun _ => rfl) fun _ =>
    .bind (.ite (.modify fun _ => rfl) (.bind .draw fun _ => .modify fun _ => rfl)) fun _ =>
    .bind (.release _) fun _ => .modify fun _ => rfl

theorem farReturn (osz : Size) (sel : Half) (off : Word) (iw : Half) : Unpaged (farReturn osz sel off iw) :=
  .bind .get fun _ => .bind (.check _ rfl) fun _ => .bind (.check _ rfl) fun _ =>
    .bind (.readDescriptor _ _ _) fun _ => .bind (.check _ rfl) fun _ => .bind (.check _ rfl) fun _ =>
    .bind (.check _ rfl) fun _ => .bind (.check _ rfl) fun _ => .bind (.release _) fun _ =>
    .ite (.modify fun _ => rfl) (.outwardReturn _ _ _ _ _)

theorem returnTo (osz : Size) (sel : Half) (off : Word) (iw : Half) : Unpaged (returnTo osz sel off iw) :=
  .bind .get fun _ => .ite (.farReturn _ _ _ _)
    (.bind (.release _) fun _ => .bind .get fun _ => .bind (.check _ rfl) fun _ => .modify fun _ => rfl)

theorem retFar (osz : Size) (iw : Half) : Unpaged (retFar osz iw) :=
  .bind (.pop _) fun _ => .bind (.pop _) fun _ => .returnTo _ _ _ _

theorem stackSwitch (lvl : BitVec 2) (ext : Bool) : Unpaged (stackSwitch lvl ext) :=
  .bind (.bind .get fun _ => .bind (.check _ rfl) fun _ => .bind (.linRead _ _ _ _) fun _ =>
      .bind (.linRead _ _ _ _) fun _ => .pure _) fun _ =>
    .bind (.stackSegFor _ _ _ _) fun _ => .modify fun _ => rfl

theorem readGate (vec : Byte) (src : Source) : Unpaged (readGate vec src) :=
  .bind .get fun _ => .bind (.check _ rfl) fun _ => .bind (.linRead _ _ _ _) fun _ => .bind (.check _ rfl) fun _ =>
    .bind (.check _ rfl) fun _ => .bind (.check _ rfl) fun _ => .bind (.check _ rfl) fun _ => .pure _

theorem readHandler (g : Desc) (ext : Bool) : Unpaged (readHandler g ext) :=
  .bind .get fun _ => .bind (.check _ rfl) fun _ => .bind (.readDescriptor _ _ _) fun _ =>
    .bind (.check _ rfl) fun _ => .bind (.check _ rfl) fun _ => .bind (.check _ rfl) fun _ => .pure _

theorem enterLevel (s : State) (sel : Half) (d : Desc) (n : Nat) (ext : Bool) : Unpaged (enterLevel s sel d n ext) :=
  .ite (.bind (.stackSwitch _ _) fun _ => .bind (.modify fun _ => rfl) fun _ => .bind (.selImage _ _) fun _ =>
    .bind (.push _ _) fun _ => .push _ _) (.modify fun _ => rfl)

theorem deliver (vec : Byte) (src : Source) (err : Option Half) (ret : Word) : Unpaged (deliver vec src err ret) :=
  .bind .get fun _ => .ite
    (.bind .get fun _ => .bind (.readGate _ _) fun _ => .bind (.readHandler _ _) fun _ =>
      .bind (.enterLevel _ _ _ _ _) fun _ => .bind (.push _ _) fun _ => .bind (.selImage _ _) fun _ =>
      .bind (.push _ _) fun _ => .bind (.push _ _) fun _ => .bind (.ite (.push _ _) (.pure _)) fun _ =>
      .modify fun _ => rfl)
    (.bind .get fun _ => .bind (.check _ rfl) fun _ => .bind (.linRead _ _ _ _) fun _ => .bind (.push _ _) fun _ =>
      .bind (.push _ _) fun _ => .bind (.push _ _) fun _ => .bind (.modify fun _ => rfl) fun _ =>
      .bind (.check _ rfl) fun _ => .modify fun _ => rfl)

/-! #### Operations of the instruction families -/

theorem logicResult {n : Nat} (r : BitVec n) : Unpaged (logicResult r) :=
  .bind .draw fun _ => .bind (.modifyFlags _) fun _ => .pure _

theorem writePair (w : Size) (hi lo : BitVec w.bits) : Unpaged (writePair w hi lo) :=
  .bind (.writeReg _ _ _) fun _ => .writeReg _ _ _

theorem imulStore (w : Size) (r : Reg) (f1 f2 : BitVec w.bits) : Unpaged (imulStore w r f1 f2) :=
  .bind (.writeReg _ _ _) fun _ => .bind .draw fun _ => .modifyFlags _

theorem shiftRM (op : ShiftOp) (w : Size) (rm : RM) (n : Nat) : Unpaged (shiftRM op w rm n) :=
  .bind .get fun _ => .bind (.readLoc _ _) fun _ => .ite (.pure _)
    (.bind .draw fun _ => .bind (.modifyFlags _) fun _ => .writeLoc _ _ _)

theorem doubleShiftRM (left : Bool) (w : Size) (rm : RM) (r : Reg) (n : Nat) :
    Unpaged (doubleShiftRM left w rm r n) :=
  .bind .get fun _ => .bind (.readLoc _ _) fun _ => .bind (.readReg _ _) fun _ => .ite (.pure _) (.ite
    (.bind .draw fun _ => .bind .draw fun _ => .bind (.modifyFlags _) fun _ => .writeLoc _ _ _)
    (.bind .draw fun _ => .bind (.modifyFlags _) fun _ => .writeLoc _ _ _))

theorem advanceIndex (w : Size) (r : Reg) : Unpaged (advanceIndex w r) :=
  .modify fun _ => by simp

theorem readSource (w : Size) : Unpaged (readSource w) :=
  .bind .get fun _ => .bind (.segRead _ _ _) fun _ => .pure _

theorem readDest (w : Size) : Unpaged (readDest w) :=
  .bind .get fun _ => .bind (.segRead _ _ _) fun _ => .pure _

theorem writeDest (w : Size) (v : BitVec w.bits) : Unpaged (writeDest w v) :=
  .bind .get fun _ => .segWrite _ _ _ _

theorem stringStep {body : Exec Unit} (hb : Unpaged body) (zterm : Bool) : Unpaged (stringStep body zterm) := by
  have hstep : ∀ kind, Unpaged (repeatStep kind body zterm) := fun kind =>
    .bind hb fun _ => .bind (.modify fun _ => by simp) fun _ => .bind .get fun _ => .ite .advance (.pure _)
  refine .bind .get fun s => ?_
  cases repeatOf s.ctx.pfx .none
  · exact .bind hb fun _ => .advance
  · exact .ite .advance (hstep _)
  · exact .ite .advance (hstep _)

theorem portRead (port : Half) (w : Size) : Unpaged (portRead port w) :=
  .bind .get fun _ => .ite (.bind .draw fun _ => .bind (.modify fun _ => rfl) fun _ => .pure _) (.pure _)

theorem portWrite (port : Half) (w : Size) (v : Word) : Unpaged (portWrite port w v) :=
  .bind .get fun _ => .ite (.modify fun _ => rfl) (.pure _)

theorem portIn (port : Half) (w : Size) : Unpaged (portIn port w) := by
  cases w with
  | b8 => exact .portRead _ _
  | b16 => exact .portRead _ _
  | b32 => exact .bind (.portRead _ _) fun _ => .bind (.portRead _ _) fun _ => .pure _

theorem portOut (port : Half) (w : Size) (v : Word) : Unpaged (portOut port w v) := by
  cases w with
  | b8 => exact .portWrite _ _ _
  | b16 => exact .portWrite _ _ _
  | b32 => exact .bind (.portWrite _ _ _) fun _ => .portWrite _ _ _

theorem ioCheck : Unpaged ioCheck :=
  .bind .get fun _ => .check _ rfl

theorem privCheck : Unpaged privCheck :=
  .bind .get fun _ => .check _ rfl

theorem popReg (w : Size) (r : Reg) : Unpaged (popReg w r) :=
  .bind (.pop _) fun _ => .writeReg _ _ _

theorem pushList (n : Nat) (vs : List Nat) : Unpaged (pushList n vs) := by
  induction vs with
  | nil => exact .pure _
  | cons v vs ih => exact .bind (.push _ _) fun _ => ih

theorem storeTable (osz : Size) (m : MemOp) (t : TableReg) : Unpaged (storeTable osz m t) :=
  .bind .get fun _ => .bind (.ite (.pure _) (.bind .draw fun _ => .pure _)) fun _ => .segWrite _ _ _ _

theorem readPseudo (osz : Size) (m : MemOp) : Unpaged (readPseudo osz m) :=
  .bind .get fun _ => .bind (.segRead _ _ _) fun _ => .pure _

theorem protectedOnly : Unpaged protectedOnly :=
  .bind .get fun _ => .check _ rfl

theorem storeHalf (osz : Size) (rm : RM) (v : Half) : Unpaged (storeHalf osz rm v) := by
  refine .bind .get fun s => ?_
  cases rm with
  | reg r => exact .ite (.bind .draw fun _ => .writeReg _ _ _) (.writeReg .b16 _ _)
  | mem m => exact .segWrite _ _ _ _

theorem clobberFlags : Unpaged clobberFlags :=
  .bind .draw fun _ => .modifyFlags _

theorem branchIf (b : Bool) (osz : Size) (rel : Word) : Unpaged (branchIf b osz rel) :=
  .ite (.bind .get fun _ => .nearTarget _ _) .advance

theorem callNear (osz : Size) (t : Word) : Unpaged (callNear osz t) :=
  .bind .get fun _ => .bind (.push _ _) fun _ => .nearTarget _ _

end Unpaged

end Sys2Proof.Machine
end

section
/-! PROOF. What every instruction keeps, said once for all rows: an instruction is a body that makes the writes ordinary
instructions make, plus at most one kind of write of its own, and that raises no page fault while paging is off. -/

namespace Sys2Proof

open Machine

/-- The part of the state that an instruction writes and an ordinary instruction leaves alone: a table register, LDTR, TR, a
debug register, a control register, CS, or what a software interrupt does (10_state R40 to R50). -/
inductive OwnWrite where
  | nothing
  | gdtr
  | idtr
  | ldtr
  | tr
  | debug
  | control (k : CReg)
  | seg (r : SReg)
  | softInt
  deriving DecidableEq

/-- What an instruction writes that an ordinary instruction leaves alone. -/
def Instr.ownWrite : Instr → OwnWrite
  | .lgdtM _ => .gdtr
  | .lidtM _ => .idtr
  | .lldtRm16 _ => .ldtr
  | .ltrRm16 _ => .tr
  | .movDrR32 _ _ _ => .debug
  | .movCrR32 _ k _ => .control k
  | .lmswRm16 _ => .control .cr0
  | .clts => .control .cr0
  | .movSregRm16 r _ => .seg r
  | .jmpFarPtr _ _ => .seg .cs
  | .jmpFarMem _ => .seg .cs
  | .callFarPtr _ _ => .seg .cs
  | .callFarMem _ => .seg .cs
  | .retf => .seg .cs
  | .retfIw _ => .seg .cs
  | .iret => .seg .cs
  | .intIb _ => .softInt
  | .int3 => .softInt
  | .into => .softInt
  | _ => .nothing

end Sys2Proof

namespace Sys2Proof.Machine

variable {R : State → State → Prop}

/-- The relation holds of the writes of one kind that an ordinary instruction does not make. -/
def OfOwn (R : State → State → Prop) : OwnWrite → Prop
  | .nothing => True
  | .gdtr => ∀ s v, R s { s with gdtr := v }
  | .idtr => ∀ s v, R s { s with idtr := v }
  | .ldtr => ∀ s v, R s { s with ldtr := v }
  | .tr => ∀ s v, R s { s with tr := v }
  | .debug => ∀ s v, R s { s with dr := v }
  | .control k => ∀ s v, R s (s.setCreg k v)
  | .seg r => OfSeg R r
  | .softInt => ∀ vec, Keeps R (softInt vec)

/-- A service by the host ends the instruction and raises nothing; a delivery with paging off raises no page fault. -/
theorem softInt_raisesNoPageFault (vec : Byte) : RaisesNoPageFault (softInt vec) := by
  have hhost : ∀ e, RaisesNoPageFault (hostService e) := fun _ _ _ _ h => (by cases h)
  exact .bind .get fun _ => .ite (hhost _) (.ite (hhost _) (Unpaged.deliver _ _ _ _).1)

/-- The relation holds of no change, of changes in sequence, and of every write that an ordinary instruction makes. -/
structure Ordinary (R : State → State → Prop) : Prop where
  preserved : Preserved R
  write : OfWrite R
  draw : OfDraw R
  reg : ∀ r, OfReg R r
  eip : OfEip R
  flag : ∀ f, OfFlag R f
  popFlags : ∀ s priv0 ioPriv v, R s { s with eflags := maskedFlags (popMask priv0 ioPriv) s.eflags v }
  sahf : ∀ s v, R s { s with eflags := sahfFlags s.eflags v }
  seg : ∀ r, r ≠ .cs → OfSeg R r
  event : OfEvent R
  halt : ∀ s, R s { s with activity := .halted }

/-- A step of an instruction whose body keeps the relation and raises no page fault while paging is off. -/
def RunsBody (R : State → State → Prop) (x : Step) (s : State) : Prop :=
  ∃ body, x = runInstr body s ∧ Keeps R body ∧ RaisesNoPageFault body

/-- What an operation on values does: it keeps the relation, and raises no page fault while paging is off. -/
def BinRuns (R : State → State → Prop) (op : BinOp) : Prop :=
  BinKeeps R op ∧ ∀ w a b, Unpaged (op w a b)

/-- The same of an operation on one value. -/
def UnRuns (R : State → State → Prop) (op : UnOp) : Prop :=
  UnKeeps R op ∧ ∀ w a, Unpaged (op w a)

theorem RunsBody.run {s : State} {x : Exec Unit} (hk : Keeps R x) (hq : Unpaged x) : RunsBody R (runInstr x s) s :=
  ⟨x, rfl, hk, hq.1⟩

namespace Ordinary

variable (h : Ordinary R)
include h

theorem status : OfStatus R := fun f _ => h.flag f

theorem rm (w : Size) (rm : RM) : OfRM R w rm := by
  cases rm
  · exact h.reg _
  · trivial

theorem seqRaises {s : State} {b : Exec Unit} (hk : Keeps R b) (hq : RaisesNoPageFault b) :
    RunsBody R (seqInstr b s) s := by
  refine ⟨_, rfl, .bind h.preserved hk fun _ => advance_keeps h.eip, fun t e hp he => ?_⟩
  obtain he | ⟨_, u, _, he⟩ := bind_error he
  · exact hq t e hp he
  · cases he

/-- An instruction that may write CS may write every segment register. -/
theorem segs (hc : OfSeg R .cs) (r : SReg) : OfSeg R r := by
  by_cases hr : r = .cs
  · exact hr ▸ hc
  · exact h.seg r hr

theorem seq {s : State} {b : Exec Unit} (hk : Keeps R b) (hq : Unpaged b) : RunsBody R (seqInstr b s) s :=
  h.seqRaises hk hq.1

theorem stringInstr {s : State} {body : Exec Unit} (hk : Keeps R body) (hq : Unpaged body) (zterm : Bool) :
    RunsBody R (runInstr (stringStep body zterm) s) s :=
  .run (stringStep_keeps h.preserved (h.reg _) h.eip hk zterm) (.stringStep hq zterm)

theorem add : BinRuns R addOp :=
  ⟨addOp_keeps h.preserved h.status, fun _ _ _ => .bind (.modifyFlags _) fun _ => .pure _⟩

theorem adc : BinRuns R adcOp :=
  ⟨adcOp_keeps h.preserved h.status, fun _ _ _ => .bind .get fun _ => .bind (.modifyFlags _) fun _ => .pure _⟩

theorem sub : BinRuns R subOp :=
  ⟨subOp_keeps h.preserved h.status, fun _ _ _ => .bind (.modifyFlags _) fun _ => .pure _⟩

theorem sbb : BinRuns R sbbOp :=
  ⟨sbbOp_keeps h.preserved h.status, fun _ _ _ => .bind .get fun _ => .bind (.modifyFlags _) fun _ => .pure _⟩

theorem and : BinRuns R andOp := ⟨andOp_keeps h.preserved h.status h.draw, fun _ _ _ => .logicResult _⟩

theorem or : BinRuns R orOp := ⟨orOp_keeps h.preserved h.status h.draw, fun _ _ _ => .logicResult _⟩

theorem xor : BinRuns R xorOp := ⟨xorOp_keeps h.preserved h.status h.draw, fun _ _ _ => .logicResult _⟩

theorem inc : UnRuns R incOp :=
  ⟨incOp_keeps h.preserved h.status, fun _ _ => .bind (.modifyFlags _) fun _ => .pure _⟩

theorem dec : UnRuns R decOp :=
  ⟨decOp_keeps h.preserved h.status, fun _ _ => .bind (.modifyFlags _) fun _ => .pure _⟩

theorem neg : UnRuns R negOp :=
  ⟨negOp_keeps h.preserved h.status, fun _ _ => .bind (.modifyFlags _) fun _ => .pure _⟩

theorem not : UnRuns R notOp := ⟨notOp_keeps h.preserved, fun _ _ => .pure _⟩

/-! #### The operand shapes of 40_arithmetic R233 -/

variable {op : BinOp} {u : UnOp} {w : Size} {r : Reg} {rm : RM} {v : BitVec w.bits} {s : State}

theorem rmFromReg (ho : BinRuns R op) : RunsBody R (seqInstr (rmFromReg op w rm r) s) s :=
  h.seq (rmFromReg_keeps h.preserved h.write ho.1 (h.rm w rm) r)
    (.bind .get fun _ => .bind (.readLoc _ _) fun _ => .bind (.readReg _ _) fun _ => .bind (ho.2 _ _ _) fun _ =>
      .writeLoc _ _ _)

theorem regFromRM (ho : BinRuns R op) : RunsBody R (seqInstr (regFromRM op w r rm) s) s :=
  h.seq (regFromRM_keeps h.preserved h.write.mark ho.1 (h.reg _) rm)
    (.bind (.readReg _ _) fun _ => .bind (.readRM _ _) fun _ => .bind (ho.2 _ _ _) fun _ => .writeReg _ _ _)

theorem rmFromImm (ho : BinRuns R op) : RunsBody R (seqInstr (rmFromImm op w rm v) s) s :=
  h.seq (rmFromImm_keeps h.preserved h.write ho.1 (h.rm w rm) v)
    (.bind .get fun _ => .bind (.readLoc _ _) fun _ => .bind (ho.2 _ _ _) fun _ => .writeLoc _ _ _)

theorem regFromImm (ho : BinRuns R op) : RunsBody R (seqInstr (regFromImm op w r v) s) s :=
  h.seq (regFromImm_keeps h.preserved ho.1 (h.reg _) v)
    (.bind (.readReg _ _) fun _ => .bind (ho.2 _ _ _) fun _ => .writeReg _ _ _)

theorem testRMReg (ho : BinRuns R op) : RunsBody R (seqInstr (testRMReg op w rm r) s) s :=
  h.seq (testRMReg_keeps h.preserved h.write.mark ho.1 w rm r)
    (.bind (.readRM _ _) fun _ => .bind (.readReg _ _) fun _ => .bind (ho.2 _ _ _) fun _ => .pure _)

theorem testRegRM (ho : BinRuns R op) : RunsBody R (seqInstr (testRegRM op w r rm) s) s :=
  h.seq (testRegRM_keeps h.preserved h.write.mark ho.1 w r rm)
    (.bind (.readReg _ _) fun _ => .bind (.readRM _ _) fun _ => .bind (ho.2 _ _ _) fun _ => .pure _)

theorem testRMImm (ho : BinRuns R op) : RunsBody R (seqInstr (testRMImm op w rm v) s) s :=
  h.seq (testRMImm_keeps h.preserved h.write.mark ho.1 w rm v)
    (.bind (.readRM _ _) fun _ => .bind (ho.2 _ _ _) fun _ => .pure _)

theorem testRegImm (ho : BinRuns R op) : RunsBody R (seqInstr (testRegImm op w r v) s) s :=
  h.seq (testRegImm_keeps h.preserved ho.1 w r v)
    (.bind (.readReg _ _) fun _ => .bind (ho.2 _ _ _) fun _ => .pure _)

theorem updateRM (ho : UnRuns R u) : RunsBody R (seqInstr (updateRM u w rm) s) s :=
  h.seq (updateRM_keeps h.preserved h.write ho.1 (h.rm w rm))
    (.bind .get fun _ => .bind (.readLoc _ _) fun _ => .bind (ho.2 _ _) fun _ => .writeLoc _ _ _)

theorem updateReg (ho : UnRuns R u) : RunsBody R (seqInstr (updateReg u w r) s) s :=
  h.seq (updateReg_keeps h.preserved ho.1 (h.reg _))
    (.bind (.readReg _ _) fun _ => .bind (ho.2 _ _) fun _ => .writeReg _ _ _)

end Ordinary

/-- Every instruction is a body that keeps each relation that holds of the writes of ordinary instructions and of the
instruction's own ones, and with paging off the body raises no page fault. -/
theorem exec_runsBody (h : Ordinary R) (i : Instr) (ho : OfOwn R i.ownWrite) (s : State) : RunsBody R (exec i s) s := by
  obtain ⟨hR, hw, hd, hreg, he, hflag, hpop, hsahf, hseg, hev, hhalt⟩ := id h
  have hm := hw.mark
  have hs := h.status
  have hrm := h.rm
  have hadd := h.add
  have hadc := h.adc
  have hsub := h.sub
  have hsbb := h.sbb
  have hand := h.and
  have hor := h.or
  have hxor := h.xor
  have hinc := h.inc
  have hdec := h.dec
  have hneg := h.neg
  have hnot := h.not
  have hpriv := privCheck_keeps hR
  have hclobber := clobberFlags_keeps hR hs hd
  cases i with
  -- 40_arithmetic R233 to R241, 41_logic_shift R261 to R265
  | addRm8R8 | addRmvRv | orRm8R8 | orRmvRv | adcRm8R8 | adcRmvRv | sbbRm8R8 | sbbRmvRv | andRm8R8 | andRmvRv
  | subRm8R8 | subRmvRv | xorRm8R8 | xorRmvRv =>
    exact h.rmFromReg (by with_reducible assumption)
  | addR8Rm8 | addRvRmv | orR8Rm8 | orRvRmv | adcR8Rm8 | adcRvRmv | sbbR8Rm8 | sbbRvRmv | andR8Rm8 | andRvRmv
  | subR8Rm8 | subRvRmv | xorR8Rm8 | xorRvRmv =>
    exact h.regFromRM (by with_reducible assumption)
  | addAlIb | orAlIb | adcAlIb | sbbAlIb | andAlIb | subAlIb | xorAlIb | addEaxIz | orEaxIz | adcEaxIz | sbbEaxIz
  | andEaxIz | subEaxIz | xorEaxIz =>
    exact h.regFromImm (by with_reducible assumption)
  | addRm8Ib | orRm8Ib | adcRm8Ib | sbbRm8Ib | andRm8Ib | subRm8Ib | xorRm8Ib | addRmvIz | orRmvIz | adcRmvIz
  | sbbRmvIz | andRmvIz | subRmvIz | xorRmvIz | addRmvIbs | orRmvIbs | adcRmvIbs | sbbRmvIbs | andRmvIbs | subRmvIbs
  | xorRmvIbs =>
    exact h.rmFromImm (by with_reducible assumption)
  | cmpRm8R8 | cmpRmvRv | testRm8R8 | testRmvRv =>
    exact h.testRMReg (by with_reducible assumption)
  | cmpR8Rm8 | cmpRvRmv =>
    exact h.testRegRM (by with_reducible assumption)
  | cmpAlIb | testAlIb | cmpEaxIz | testEaxIz =>
    exact h.testRegImm (by with_reducible assumption)
  | cmpRm8Ib | testRm8Ib | cmpRmvIz | testRmvIz | cmpRmvIbs =>
    exact h.testRMImm (by with_reducible assumption)
  | incRv | decRv =>
    exact h.updateReg (by with_reducible assumption)
  | notRm8 | negRm8 | notRmv | negRmv | incRm8 | decRm8 | incRmv | decRmv =>
    exact h.updateRM (by with_reducible assumption)
  -- 40_arithmetic R242 to R246
  | mulRm8 | mulRmv =>
    exact h.seq (mulAcc_keeps hR hs hd hm (hreg _) (hreg _) _ _) (.bind (.readRM _ _) fun _ => .bind (.readReg _
      _) fun _ => .bind (.writePair _ _ _) fun _ => .bind .draw fun _ => .modifyFlags _)
  | imulRm8 | imulRmv =>
    exact h.seq (imulAcc_keeps hR hs hd hm (hreg _) (hreg _) _ _) (.bind (.readRM _ _) fun _ => .bind (.readReg
      _ _) fun _ => .bind (.writePair _ _ _) fun _ => .bind .draw fun _ => .modifyFlags _)
  | imulRvRmv =>
    exact h.seq (imulReg_keeps hR hs hd hm (hreg _) _) (.bind (.readReg _ _) fun _ => .bind (.readRM _ _) fun _
      => .imulStore _ _ _ _)
  | imulRvRmvIz | imulRvRmvIbs =>
    exact h.seq (imulImm_keeps hR hs hd hm (hreg _) _ _) (.bind (.readRM _ _) fun _ => .imulStore _ _ _ _)
  | divRm8 | divRmv =>
    exact h.seq (divAcc_keeps hR hs hd hm (hreg _) (hreg _) _ _) (.bind (.readRM _ _) fun _ => .bind (.check _
      rfl) fun _ => .bind .get fun _ => .bind (.check _ rfl) fun _ => .bind (.writePair _ _ _) fun _ => .bind
      .draw fun _ => .modifyFlags _)
  | idivRm8 | idivRmv =>
    exact h.seq (idivAcc_keeps hR hs hd hm (hreg _) (hreg _) _ _) (.bind (.readRM _ _) fun _ => .bind (.check _
      rfl) fun _ => .bind .get fun _ => .bind (.check _ rfl) fun _ => .bind (.writePair _ _ _) fun _ => .bind
      .draw fun _ => .modifyFlags _)
  -- 41_logic_shift R266 to R276
  | rolRm8Ib | rolRmvIb | rorRm8Ib | rorRmvIb | rclRm8Ib | rclRmvIb | rcrRm8Ib | rcrRmvIb | shlRm8Ib | shlRmvIb
  | shrRm8Ib | shrRmvIb | sarRm8Ib | sarRmvIb | rolRm8One | rolRmvOne | rorRm8One | rorRmvOne | rclRm8One | rclRmvOne
  | rcrRm8One | rcrRmvOne | shlRm8One | shlRmvOne | shrRm8One | shrRmvOne | sarRm8One | sarRmvOne | rolRm8Cl
  | rolRmvCl | rorRm8Cl | rorRmvCl | rclRm8Cl | rclRmvCl | rcrRm8Cl | rcrRmvCl | shlRm8Cl | shlRmvCl | shrRm8Cl
  | shrRmvCl | sarRm8Cl | sarRmvCl =>
    exact h.seq (shiftRM_keeps hR hs hd hw (hrm _ _) _ _) (.shiftRM _ _ _ _)
  | shldRmvRvIb | shldRmvRvCl | shrdRmvRvIb | shrdRmvRvCl =>
    exact h.seq (doubleShiftRM_keeps hR hs hd hw (hrm _ _) _ _ _) (.doubleShiftRM _ _ _ _ _)
  | setccRm8 =>
    exact h.seq (setOnCond_keeps hR hw (hrm _ _) _) (.bind .get fun _ => .writeRM _ _ _)
  -- 42_string_io
  | movsB | movsV =>
    exact h.stringInstr (movsBody_keeps hR hw (hreg _) (hreg _) _) (.bind (.readSource _) fun _ => .bind
      (.writeDest _ _) fun _ => .bind (.advanceIndex _ _) fun _ => .advanceIndex _ _) _
  | cmpsB | cmpsV =>
    exact h.stringInstr (cmpsBody_keeps hR hs hm (hreg _) (hreg _) _) (.bind (.readSource _) fun _ => .bind
      (.readDest _) fun _ => .bind (hsub.2 _ _ _) fun _ => .bind (.advanceIndex _ _) fun _ => .advanceIndex _ _)
      _
  | stosB | stosV =>
    exact h.stringInstr (stosBody_keeps hR hw (hreg _) _) (.bind (.readReg _ _) fun _ => .bind (.writeDest _ _)
      fun _ => .advanceIndex _ _) _
  | lodsB | lodsV =>
    exact h.stringInstr (lodsBody_keeps hR hm (hreg _) (hreg _) _) (.bind (.readSource _) fun _ => .bind
      (.writeReg _ _ _) fun _ => .advanceIndex _ _) _
  | scasB | scasV =>
    exact h.stringInstr (scasBody_keeps hR hs hm (hreg _) _) (.bind (.readReg _ _) fun _ => .bind (.readDest _)
      fun _ => .bind (hsub.2 _ _ _) fun _ => .advanceIndex _ _) _
  | insB | insV =>
    exact h.stringInstr (insBody_keeps hR hd hev hw (hreg _) _) (.bind .ioCheck fun _ => .bind .get fun _ =>
      .bind (.checkSegWrite _ _ _) fun _ => .bind (.portIn _ _) fun _ => .bind (.writeDest _ _) fun _ =>
      .advanceIndex _ _) _
  | outsB | outsV =>
    exact h.stringInstr (outsBody_keeps hR hev hm (hreg _) _) (.bind .ioCheck fun _ => .bind (.readSource _) fun
      _ => .bind .get fun _ => .bind (.portOut _ _ _) fun _ => .advanceIndex _ _) _
  | inAlIb | inEaxIb | inAlDx | inEaxDx =>
    exact h.seq (inPort_keeps hR hd hev (hreg _) _ _) (.bind .ioCheck fun _ => .bind (.portIn _ _) fun _ =>
      .writeReg _ _ _)
  | outIbAl | outIbEax | outDxAl | outDxEax =>
    exact h.seq (outPort_keeps hR hev _ _) (.bind .ioCheck fun _ => .bind (.readReg _ _) fun _ => .portOut _ _
      _)
  -- 43_stack
  | pushRv =>
    exact h.seq (pushReg_keeps hR hw (hreg _) _ _) (.bind (.readReg _ _) fun _ => .push _ _)
  | pushRmv =>
    exact h.seq (pushRM_keeps hR hw (hreg _) _ _) (.bind (.readRM _ _) fun _ => .push _ _)
  | pushIz | pushIbs =>
    exact h.seq (push_keeps hR hw (hreg _) _ _) (.push _ _)
  | pushEs | pushCs | pushSs | pushDs | pushFs | pushGs =>
    exact h.seq (pushSReg_keeps hR hd hw (hreg _) _ _) (.bind .get fun _ => .bind (.selImage _ _) fun _ => .push
      _ _)
  | popRv =>
    exact h.seq (popReg_keeps hR hm (hreg _) (hreg _)) (.popReg _ _)
  | popRmv =>
    exact h.seq (popRM_keeps hR hw (hreg _) (hrm _ _)) (.bind (.pop _) fun _ => .writeRM _ _ _)
  | popEs | popSs | popDs | popFs | popGs =>
    exact h.seq (popSReg_keeps hR hw (hreg _) (hseg _ (by decide)) _) (.bind (.pop _) fun _ => .loadSReg _ _)
  | pusha =>
    exact h.seq (pushAll_keeps hR hw (hreg _) _) (.bind .get fun _ => .pushList _ _)
  | popa =>
    exact h.seq (popAll_keeps hR hm hreg _) (.bind (.popReg _ _) fun _ => .bind (.popReg _ _) fun _ => .bind
      (.popReg _ _) fun _ => .bind (.pop _) fun _ => .bind (.popReg _ _) fun _ => .bind (.popReg _ _) fun _ =>
      .bind (.popReg _ _) fun _ => .popReg _ _)
  | pushf =>
    exact h.seq (pushFlags_keeps hR hw (hreg _) _) (.bind .get fun _ => .push _ _)
  | popf =>
    exact h.seq (popFlags_keeps hR hm (hreg _) (fun s v => hpop s _ _ v) _) (.bind (.pop _) fun _ => .bind .get
      fun _ => .modifyFlags _)
  | leave =>
    exact h.seq (leaveFrame_keeps hR hm (hreg _) (hreg _)) (.bind (.modify fun _ => by simp) fun _ => .popReg _
      _)
  -- 44_protected_mode
  | movSregRm16 =>
    exact h.seq (moveToSeg_keeps hR hw ho _) (.bind (.readRM _ _) fun _ => .loadSReg _ _)
  | lesRvMem | ldsRvMem | lssRvMem | lfsRvMem | lgsRvMem =>
    exact h.seq (loadFarPointer_keeps hR hw (hseg _ (by decide)) (hreg _) _) (.bind .get fun _ => .bind
      (.segRead _ _ _) fun _ => .bind (.loadSReg _ _) fun _ => .writeReg _ _ _)
  | movRm16Sreg | smswRm16 =>
    exact h.seq (storeHalf_keeps hR hd hw (hrm _ _) _ _) (.storeHalf _ _ _)
  | sldtRm16 | strRm16 =>
    exact h.seq (storeProtected_keeps hR hd hw (hrm _ _) _ _) (.bind .protectedOnly fun _ => .storeHalf _ _ _)
  | sgdtM | sidtM =>
    exact h.seq (storeTable_keeps hR hd hw _ _ _) (.storeTable _ _ _)
  | lgdtM | lidtM =>
    exact h.seq (.bind hR hpriv fun _ => .bind hR (readPseudo_keeps hR hm _ _) fun _ => .modify fun s => ho s _)
      (.bind .privCheck fun _ => .bind (.readPseudo _ _) fun _ => .modify fun _ => rfl)
  | lldtRm16 =>
    exact h.seq (.bind hR (protectedOnly_keeps hR) fun _ => .bind hR hpriv fun _ => .bind hR (readRM_keeps hR hm
      _ _) fun _ => .ite (.modify fun s => ho s _) (.bind hR (.check hR _ _) fun _ => .bind hR
      (readDescriptor_keeps hR hm _ _ _) fun _ => .bind hR (.check hR _ _) fun _ => .bind hR (.check hR _ _) fun
      _ => .modify fun s => ho s _)) (.bind .protectedOnly fun _ => .bind .privCheck fun _ => .bind (.readRM _
      _) fun _ => .ite (.modify fun _ => rfl) (.bind (.check _ rfl) fun _ => .bind (.readDescriptor _ _ _) fun _
      => .bind (.check _ rfl) fun _ => .bind (.check _ rfl) fun _ => .modify fun _ => rfl))
  | ltrRm16 =>
    exact h.seq (.bind hR (protectedOnly_keeps hR) fun _ => .bind hR hpriv fun _ => .bind hR (readRM_keeps hR hm
      _ _) fun _ => .bind hR (.check hR _ _) fun _ => .bind hR (.check hR _ _) fun _ => .bind hR
      (readDescriptor_keeps hR hm _ _ _) fun _ => .bind hR (.check hR _ _) fun _ => .bind hR (.check hR _ _) fun
      _ => .bind hR (.modify fun s => ho s _) fun _ => markDescriptor_keeps hR hw _ _ _) (.bind .protectedOnly
      fun _ => .bind .privCheck fun _ => .bind (.readRM _ _) fun _ => .bind (.check _ rfl) fun _ => .bind
      (.check _ rfl) fun _ => .bind (.readDescriptor _ _ _) fun _ => .bind (.check _ rfl) fun _ => .bind (.check
      _ rfl) fun _ => .bind (.modify fun _ => rfl) fun _ => .markDescriptor _ _ _)
  | movCrR32 =>
    exact h.seqRaises (.bind hR hpriv fun _ => .bind hR (.modify fun s => ho s _) fun _ => hclobber) (.bind
      .privCheck fun _ _ _ _ he => by cases he)
  | lmswRm16 =>
    exact h.seqRaises (.bind hR hpriv fun _ => .bind hR (readRM_keeps hR hm _ _) fun _ => .modify fun s => ho s
      _) (.bind .privCheck fun _ => .bind (.readRM _ _) fun _ _ _ _ he => by cases he)
  | clts =>
    exact h.seqRaises (.bind hR hpriv fun _ => .modify fun s => ho s _) (.bind .privCheck fun _ _ _ _ he => by
      cases he)
  | movR32Cr | movR32Dr =>
    exact h.seq (.bind hR hpriv fun _ => .bind hR (.modify fun s => hreg _ s _) fun _ => hclobber) (.bind
      .privCheck fun _ => .bind (.modify fun _ => rfl) fun _ => .clobberFlags)
  | movDrR32 =>
    exact h.seq (.bind hR hpriv fun _ => .bind hR (.modify fun s => ho s _) fun _ => hclobber) (.bind .privCheck
      fun _ => .bind (.modify fun _ => rfl) fun _ => .clobberFlags)
  | hlt =>
    exact h.seq (.bind hR hpriv fun _ => .modify hhalt) (.bind .privCheck fun _ => .modify fun _ => rfl)
  | cli | sti =>
    exact h.seq (setInterruptFlag_keeps hR (hflag _) _) (.bind .get fun _ => .bind (.check _ rfl) fun _ =>
      .modifyFlags _)
  -- 45_data_movement
  | movRm8R8 | movRmvRv =>
    exact h.seq (moveToRM_keeps hR hw (hrm _ _) _) (.bind (.readReg _ _) fun _ => .writeRM _ _ _)
  | movR8Rm8 | movRvRmv =>
    exact h.seq (moveToReg_keeps hR hm (hreg _) _) (.bind (.readRM _ _) fun _ => .writeReg _ _ _)
  | movAlMoffs8 | movEaxMoffsv =>
    exact h.seq (loadMoffs_keeps hR hm (hreg _) _ _) (.bind .get fun _ => .bind (.segRead _ _ _) fun _ =>
      .writeReg _ _ _)
  | movMoffs8Al | movMoffsvEax =>
    exact h.seq (storeMoffs_keeps hR hw _ _) (.bind .get fun _ => .segWrite _ _ _ _)
  | movR8Ib | movRvIz =>
    exact h.seq (writeReg_keeps (hreg _) _) (.writeReg _ _ _)
  | movRm8Ib | movRmvIz =>
    exact h.seq (writeRM_keeps hR hw (hrm _ _) _) (.writeRM _ _ _)
  | xchgRm8R8 | xchgRmvRv =>
    exact h.seq (exchangeRM_keeps hR hw (hrm _ _) (hreg _)) (.bind .get fun _ => .bind (.readLoc _ _) fun _ =>
      .bind (.readReg _ _) fun _ => .bind (.writeLoc _ _ _) fun _ => .writeReg _ _ _)
  | xchgEaxEcx | xchgEaxEdx | xchgEaxEbx | xchgEaxEsp | xchgEaxEbp | xchgEaxEsi | xchgEaxEdi =>
    exact h.seq (exchangeAcc_keeps hR (hreg _) (hreg _)) (.bind (.readReg _ _) fun _ => .bind (.readReg _ _) fun
      _ => .bind (.writeReg _ _ _) fun _ => .writeReg _ _ _)
  | leaRvM =>
    exact h.seq (loadAddress_keeps hR (hreg _) _) (.bind .get fun _ => .writeReg _ _ _)
  | movzxRvRm8 | movzxRvRm16 =>
    exact h.seq (moveZero_keeps hR hm (hreg _) _ _) (.bind (.readRM _ _) fun _ => .writeReg _ _ _)
  | movsxRvRm8 | movsxRvRm16 =>
    exact h.seq (moveSign_keeps hR hm (hreg _) _ _) (.bind (.readRM _ _) fun _ => .writeReg _ _ _)
  | cbw =>
    exact h.seq (convertAcc_keeps hR (hreg _) _) (.bind .get fun _ => .ite (.writeReg _ _ _) (.writeReg _ _ _))
  | cwd =>
    exact h.seq (extendAcc_keeps hR (hreg _)) (.bind .get fun _ => .writeReg _ _ _)
  | xlat =>
    exact h.seq (translateAcc_keeps hR hm (hreg _)) (.bind .get fun _ => .bind (.segRead _ _ _) fun _ =>
      .writeReg _ _ _)
  | lahf =>
    exact h.seq (loadAh_keeps hR (hreg _)) (.bind .get fun _ => .writeReg _ _ _)
  | sahf =>
    exact h.seq (storeAh_keeps hR hsahf) (.bind .get fun _ => .modifyFlags _)
  | nop =>
    exact h.seq (.pure hR _) (.pure _)
  | clc | stc | cld | std =>
    exact h.seq (.modify fun s => hflag _ s _) (.modifyFlags _)
  | cmc =>
    exact h.seq (.modify fun s => hflag .cf s _) (.modifyFlags _)
  -- 46_control_transfer
  | jmpRel8 | jmpRelz =>
    exact .run (jumpRel_keeps hR he _ _) (.bind .get fun _ => .nearTarget _ _)
  | jccRel8 | jccRelz =>
    exact .run (jumpCond_keeps hR he _ _ _) (.bind .get fun _ => .branchIf _ _ _)
  | jmpRmv =>
    exact .run (jumpRM_keeps hR hm he _ _) (.bind (.readRM _ _) fun _ => .nearTarget _ _)
  | jcxzRel8 =>
    exact .run (jumpCountZero_keeps hR he _ _) (.bind .get fun _ => .branchIf _ _ _)
  | loopRel8 | loopeRel8 | loopneRel8 =>
    exact .run (loopBranch_keeps hR (hreg _) he _ _ _) (.bind (.modify fun _ => by simp) fun _ => .bind .get fun
      _ => .branchIf _ _ _)
  | callRelz =>
    exact .run (callRel_keeps hR hw (hreg _) he _ _) (.bind .get fun _ => .callNear _ _)
  | callRmv =>
    exact .run (callRM_keeps hR hw (hreg _) he _ _) (.bind (.readRM _ _) fun _ => .callNear _ _)
  | ret | retIw =>
    exact .run (retNear_keeps hR hm (hreg _) he _ _) (.bind (.pop _) fun _ => .bind (.release _) fun _ =>
      .nearTarget _ _)
  | jmpFarPtr =>
    exact .run (jumpFar_keeps hR hw ho he _ _ _) (.farTransfer _ _ _ (.pure _))
  | jmpFarMem =>
    exact .run (jumpFarMem_keeps hR hw ho he _ _) (.bind (.readFarPointer _ _) fun _ => .farTransfer _ _ _
      (.pure _))
  | callFarPtr =>
    exact .run (callFar_keeps hR hd hw (hreg _) ho he _ _ _) (.farTransfer _ _ _ (.pushReturn _))
  | callFarMem =>
    exact .run (callFarMem_keeps hR hd hw (hreg _) ho he _ _) (.bind (.readFarPointer _ _) fun _ => .farTransfer
      _ _ _ (.pushReturn _))
  | retf | retfIw =>
    exact .run (retFar_keeps hR hm hd (hreg _) (h.segs ho) he _ _) (.retFar _ _)
  | iret =>
    exact .run (interruptReturn_keeps hR hm hd (hreg _) (h.segs ho) he hpop _) (.bind .get fun _ => .bind
      (.check _ rfl) fun _ => .bind (.pop _) fun _ => .bind (.pop _) fun _ => .bind (.pop _) fun _ => .bind
      (.check _ rfl) fun _ => .bind (.returnTo _ _ _ _) fun _ => .modifyFlags _)
  | int3 | intIb =>
    exact ⟨_, rfl, ho _, softInt_raisesNoPageFault _⟩
  | into =>
    exact ⟨_, rfl, .bind hR (.get hR) fun _ => .ite (ho _) (advance_keeps he), .bind .get fun _ => .ite
      (softInt_raisesNoPageFault _) Unpaged.advance.1⟩
end Sys2Proof.Machine
end

section
/-! PROOF. What a delivery keeps, and what an instruction keeps that answers a next state: its body ran to the end, or it was
discarded and its exception delivered (60_exceptions R500, R506, R508). -/

namespace Sys2Proof.Machine

variable {R : State → State → Prop} {s t : State} {vec : Byte} {src : Source} {err : Option Half} {ret : Word}

theorem Ordinary.deliver (h : Ordinary R) (hcs : OfSeg R .cs) (he : OfEnter R) (vec : Byte) (src : Source)
    (err : Option Half) (ret : Word) : Keeps R (deliver vec src err ret) :=
  deliver_keeps h.preserved h.write h.draw (h.reg _) hcs (h.seg _ (by decide)) he vec src err ret

/-- A relation that holds of what Deliver does, of the depth and of CR2 holds of a whole delivery, nested or not. -/
theorem deliverEvent_keeps (hR : Preserved R) (hdepth : ∀ s d, R s { s with depth := d })
    (hcr2 : ∀ s v, R s (s.withCr2 v)) (hk : ∀ vec src err ret, Keeps R (deliver vec src err ret))
    (h : deliverEvent vec src err ret s = .next t) : R s t := by
  have hrun : ∀ {vec src err u x a d}, deliver vec src err ret { u with depth := d } = .ok (a, x) →
      R u { x with depth := 0 } := fun {_ _ _ u _ _ _} hx =>
    hR.trans _ _ _ (hdepth u _) (hR.trans _ _ _ (hk _ _ _ _ _ _ _ hx) (hdepth _ 0))
  simp only [deliverEvent] at h
  split at h
  · next hx => cases h; exact hrun hx
  · next a _ => cases a <;> cases h
  · next r _ =>
    simp only [deliverNested] at h
    split at h
    · next hx => cases h; exact hR.trans _ _ _ (hcr2 s r.cr2) (hrun hx)
    · next a _ => cases a <;> cases h
    · cases h

theorem deliverEvent_depth (h : deliverEvent vec src err ret s = .next t) : t.depth = 0 := by
  simp only [deliverEvent] at h
  split at h
  · cases h; rfl
  · next a _ => cases a <;> cases h
  · simp only [deliverNested] at h
    split at h
    · cases h; rfl
    · next a _ => cases a <;> cases h
    · cases h

/-- With paging off no delivery writes CR2 (20_memory R132). -/
theorem deliverEvent_cr2 (hp : s.paging = false) (h : deliverEvent vec src err ret s = .next t) : t.cr2 = s.cr2 := by
  have hk : ∀ vec src err ret, Keeps (fun s t : State => t.cr2 = s.cr2) (deliver vec src err ret) :=
    deliver_keeps ⟨fun _ => rfl, fun _ _ _ h k => k.trans h⟩ (fun _ _ _ _ => rfl) (fun _ => rfl) (fun _ _ => rfl)
      (fun _ _ => rfl) (fun _ _ => rfl) (fun _ _ _ _ => rfl)
  simp only [deliverEvent] at h
  split at h
  · next u hx =>
    have hu : u.cr2 = s.cr2 := hk _ _ _ _ { s with depth := 1 } _ _ hx
    cases h; exact hu
  · next a _ => cases a <;> cases h
  · next r hx =>
    have hr : r.cr2 = none := (Unpaged.deliver vec src err ret).1 { s with depth := 1 } _ hp hx
    simp only [deliverNested, hr, State.withCr2] at h
    split at h
    · next u hx =>
      have hu : u.cr2 = s.cr2 := hk _ _ _ _ { s with depth := 2 } _ _ hx
      cases h; exact hu
    · next a _ => cases a <;> cases h
    · cases h

/-- With no handler registered a software interrupt is a delivery (46_control_transfer R460). -/
theorem softInt_run (hn : s.noHandlers = true) (vec : Byte) : softInt vec s = deliver vec .softInt none s.nextEip s := by
  simp only [State.noHandlers, Bool.and_eq_true, List.isEmpty_iff] at hn
  obtain ⟨⟨hemu, hmux⟩, -⟩ := hn
  simp only [softInt, bind_run, get_run, hemu, hmux, List.contains_nil, Bool.false_eq_true, and_false, if_false]

theorem RunsBody.next (hR : Preserved R) (hm : OfMark R) {x : Step} (hx : RunsBody R x s) (h : x = .next t) :
    R s t ∨ ∃ r : Raised, (s.paging = false → r.cr2 = none) ∧
      deliverEvent r.vec .fault r.err s.eip (s.withCr2 r.cr2) = .next t := by
  obtain ⟨body, rfl, hk, hq⟩ := hx
  unfold runInstr at h
  cases hb : (touchFetch >>= fun _ => body) s with
  | ok v =>
    rw [hb] at h
    cases h
    exact .inl (Keeps.bind hR (touchFetch_keeps hR hm) (fun _ => hk) s v.1 v.2 hb)
  | error e =>
    have he := fun hp => RaisesNoPageFault.bind .touchFetch (fun _ => hq) s e hp hb
    rw [hb] at h
    cases e with
    | raise r => exact .inr ⟨r, he, h⟩
    | fatal a => cases a <;> cases h

theorem exec_next (hR : Ordinary R) {i : Instr} (ho : OfOwn R i.ownWrite) (h : exec i s = .next t) :
    R s t ∨ ∃ r : Raised, (s.paging = false → r.cr2 = none) ∧
      deliverEvent r.vec .fault r.err s.eip (s.withCr2 r.cr2) = .next t :=
  (exec_runsBody hR i ho s).next hR.preserved hR.write.mark h

end Sys2Proof.Machine
end

section
/-! PROOF. The invariant of a boundary (10_state R38, R39, R53 to R55; 20_memory R80, R83). -/

namespace Sys2Proof.Machine

/-! ### The fixed bits of EFLAGS (10_state R39) -/

/-- The bits of EFLAGS that no write changes read as 10_state R39 says. -/
def FixedBits (fl : Word) : Prop :=
  fl &&& ~~~flagsWmask = 2

theorem fixedBits_setFlag (f : Flag) (b : Bool) {fl : Word} (h : FixedBits fl) : FixedBits (setFlag f b fl) := by
  have hpos : BitVec.ofNat 32 (2 ^ f.pos) &&& ~~~flagsWmask = 0 ∧
      ~~~(BitVec.ofNat 32 (2 ^ f.pos)) &&& ~~~flagsWmask = ~~~flagsWmask := by cases f <;> decide
  unfold FixedBits setFlag at *
  cases b
  · rw [if_neg (by decide), BitVec.and_assoc, hpos.2, h]
  · rw [if_pos rfl, BitVec.and_or_distrib_right, hpos.1, h]; decide

/-- The mask changes none of the fixed bits. -/
def WithinMask (mask : Word) : Prop :=
  mask &&& ~~~flagsWmask = 0#32 ∧ ~~~mask &&& ~~~flagsWmask = ~~~flagsWmask

theorem withinMask_popMask (priv0 ioPriv : Bool) : WithinMask (popMask priv0 ioPriv) := by
  unfold WithinMask
  cases priv0 <;> cases ioPriv <;> decide

theorem withinMask_flagsWmask : WithinMask flagsWmask := by
  unfold WithinMask
  decide

theorem fixedBits_maskedFlags {mask old : Word} (new : Word) (hm : WithinMask mask) (h : FixedBits old) :
    FixedBits (maskedFlags mask old new) := by
  unfold FixedBits maskedFlags at *
  rw [BitVec.and_or_distrib_right, BitVec.and_or_distrib_right, BitVec.and_assoc, BitVec.and_assoc, hm.1, hm.2, h,
    BitVec.and_zero]
  decide

theorem fixedBits_sahfFlags {old : Word} (ah : Byte) (h : FixedBits old) : FixedBits (sahfFlags old ah) := by
  have hlow : (0xD5 : Word) &&& ~~~flagsWmask = 0#32 := by decide
  unfold FixedBits sahfFlags at *
  rw [BitVec.and_or_distrib_right, BitVec.and_or_distrib_right, BitVec.and_assoc (ah.setWidth 32), hlow, BitVec.and_zero,
    BitVec.and_assoc old, BitVec.and_comm 0xFFFFFF00, ← BitVec.and_assoc old, h]
  decide

/-! ### What every step keeps -/

/-- The part of the invariant that every write of a step keeps: memory, its size and the fixed bits of EFLAGS. -/
structure State.Sound (s : State) : Prop where
  wf : Memory.wf s.mem = true
  inRange : s.memInRange = true
  size : s.sizeOk = true
  flags : FixedBits s.eflags

/-- A sound state between steps, at delivery depth 0 (10_state R55). -/
def State.Settled (s : State) : Prop :=
  s.Sound ∧ s.depth = 0

theorem State.inv_iff (s : State) :
    s.Inv ↔ s.Settled ∧ s.tfAtStart = false ∧ s.ctx = Ctx.clear := by
  simp only [State.Inv, State.Settled, State.quiet, State.flagsFixed, Bool.and_eq_true, Bool.not_eq_true', beq_iff_eq]
  constructor
  · rintro ⟨hwf, hin, hsz, hfl, ⟨htf, hd⟩, hc⟩
    exact ⟨⟨⟨hwf, hin, hsz, hfl⟩, hd⟩, htf, hc⟩
  · rintro ⟨⟨⟨hwf, hin, hsz, hfl⟩, hd⟩, htf, hc⟩
    exact ⟨hwf, hin, hsz, hfl, ⟨htf, hd⟩, hc⟩

/-- Soundness passes from start to end, and the delivery depth does not change. -/
def KeepsSound (s t : State) : Prop :=
  (s.Sound → t.Sound) ∧ t.depth = s.depth

theorem KeepsSound.of_same {s t : State} (hm : t.mem = s.mem) (hf : t.eflags = s.eflags) (hp : t.params = s.params)
    (hd : t.depth = s.depth) : KeepsSound s t := by
  refine ⟨fun ⟨hwf, hin, hsz, hfl⟩ => ⟨by rw [hm]; exact hwf, ?_, ?_, by rw [hf]; exact hfl⟩, hd⟩
  · rw [State.memInRange, hm, hp]; exact hin
  · rw [State.sizeOk, hp]; exact hsz

theorem KeepsSound.of_flags {s : State} {fl : Word} (h : FixedBits s.eflags → FixedBits fl) :
    KeepsSound s { s with eflags := fl } :=
  ⟨fun ⟨hwf, hin, hsz, hfl⟩ => ⟨hwf, hin, hsz, h hfl⟩, rfl⟩

theorem State.Sound.write {s : State} (h : s.Sound) {a : Nat} (v : Byte) (ha : a < s.params.memSize) :
    State.Sound { s with mem := Memory.write s.mem a v } :=
  ⟨Memory.wf_write a v h.wf, Memory.all_lt_write v h.inRange ha, h.size, h.flags⟩

theorem keepsSound_ordinary : Ordinary KeepsSound where
  preserved := ⟨fun _ => ⟨id, rfl⟩, fun _ _ _ h k => ⟨fun hs => k.1 (h.1 hs), k.2.trans h.2⟩⟩
  write := fun _ _ v ha => ⟨fun h => h.write v ha, rfl⟩
  draw := fun _ => .of_same rfl rfl rfl rfl
  reg := fun _ _ _ => .of_same rfl rfl rfl rfl
  eip := fun _ _ => .of_same rfl rfl rfl rfl
  flag := fun _ _ _ => .of_flags (fixedBits_setFlag _ _)
  popFlags := fun _ _ _ _ => .of_flags (fixedBits_maskedFlags _ (withinMask_popMask _ _))
  sahf := fun _ _ => .of_flags (fixedBits_sahfFlags _)
  seg := fun _ _ _ _ => .of_same rfl rfl rfl rfl
  event := fun _ _ => .of_same rfl rfl rfl rfl
  halt := fun _ => .of_same rfl rfl rfl rfl

theorem keepsSound_enter : OfEnter KeepsSound := by
  rintro s eip clear hclear
  refine ⟨fun ⟨hwf, hin, hsz, hfl⟩ => ⟨hwf, hin, hsz, ?_⟩, rfl⟩
  obtain rfl | ⟨t, rfl⟩ := hclear
  · exact fixedBits_setFlag _ _ (fixedBits_setFlag _ _ hfl)
  · unfold gateFlags
    split
    · exact fixedBits_setFlag _ _ (fixedBits_setFlag _ _ (fixedBits_setFlag _ _ hfl))
    · exact fixedBits_setFlag _ _ (fixedBits_setFlag _ _ hfl)

theorem deliver_keepsSound (vec : Byte) (src : Source) (err : Option Half) (ret : Word) :
    Keeps KeepsSound (deliver vec src err ret) :=
  keepsSound_ordinary.deliver (fun _ _ => .of_same rfl rfl rfl rfl) keepsSound_enter _ _ _ _

/-- A host handler keeps the fixed bits and writes bytes in range only (60_exceptions R524, log 8). -/
theorem State.hostWrite_keepsSound (s : State) (w : HostWrite) : KeepsSound s (s.hostWrite w) := by
  cases w with
  | byte a v =>
    simp only [State.hostWrite]
    split
    · next ha => exact ⟨fun h => h.write v ha, rfl⟩
    · exact keepsSound_ordinary.preserved.refl s
  | eflags v => exact .of_flags (fixedBits_maskedFlags _ withinMask_flagsWmask)
  | control k v => cases k <;> exact .of_same rfl rfl rfl rfl
  | _ => exact .of_same rfl rfl rfl rfl

theorem State.hostCall_keepsSound (s : State) (e : HostEvent) : KeepsSound s (s.hostCall e) := by
  have hR := keepsSound_ordinary.preserved
  have hfold : ∀ (ws : List HostWrite) (s : State), KeepsSound s (ws.foldl State.hostWrite s) := by
    intro ws
    induction ws with
    | nil => exact hR.refl
    | cons w ws ih => exact fun s => hR.trans _ _ _ (s.hostWrite_keepsSound w) (ih _)
  exact hR.trans s { s with draws := s.draws + 1, events := s.events ++ [e] } _ (.of_same rfl rfl rfl rfl) (hfold _ _)

theorem keepsSound_own (o : OwnWrite) : OfOwn KeepsSound o := by
  cases o with
  | nothing => trivial
  | control k => cases k <;> exact fun _ _ => .of_same rfl rfl rfl rfl
  | softInt =>
    have h := keepsSound_ordinary
    exact softInt_keeps h.preserved h.write h.draw (h.reg _) (fun _ _ => .of_same rfl rfl rfl rfl)
      (h.seg _ (by decide)) keepsSound_enter
      fun s e => h.preserved.trans _ _ _ (s.hostCall_keepsSound e) (.of_same rfl rfl rfl rfl)
  | _ => exact fun _ _ => .of_same rfl rfl rfl rfl

/-! ### Every part of a step ends settled -/

variable {s t : State}

theorem KeepsSound.settled (h : KeepsSound s t) (hs : s.Settled) : t.Settled :=
  ⟨h.1 hs.1, h.2.trans hs.2⟩

theorem State.Settled.of_same (hs : s.Settled) (hm : t.mem = s.mem) (hf : t.eflags = s.eflags)
    (hp : t.params = s.params) (hd : t.depth = s.depth) : t.Settled :=
  (KeepsSound.of_same hm hf hp hd).settled hs

theorem State.Sound.withCr2 (hs : s.Sound) (v : Option Word) : (s.withCr2 v).Sound :=
  (KeepsSound.of_same (by simp) (by simp) (by simp) (by simp)).1 hs

theorem deliverEvent_settled {vec : Byte} {src : Source} {err : Option Half} {ret : Word} (hs : s.Sound)
    (h : deliverEvent vec src err ret s = .next t) : t.Settled := by
  have hR : Preserved (fun s t : State => s.Sound → t.Sound) := ⟨fun _ => id, fun _ _ _ h k hs => k (h hs)⟩
  exact ⟨deliverEvent_keeps hR (fun _ _ ⟨hwf, hin, hsz, hfl⟩ => ⟨hwf, hin, hsz, hfl⟩)
    (fun _ v hs => hs.withCr2 v) (fun _ _ _ _ => (deliver_keepsSound _ _ _ _).mono fun _ _ h => h.1) h hs,
    deliverEvent_depth h⟩

theorem settle_settled {ret : Word} {r : Except Stop (Unit × State)} (hs : s.Sound)
    (hr : ∀ a u, r = .ok (a, u) → u.Settled) (h : settle s ret r = .next t) : t.Settled := by
  unfold settle at h
  split at h
  · cases h; exact hr _ _ rfl
  · next a => cases a <;> cases h
  · exact deliverEvent_settled (hs.withCr2 _) h

theorem exec_settled {i : Instr} (hs : s.Settled) (h : exec i s = .next t) : t.Settled := by
  obtain h | ⟨r, -, h⟩ := exec_next keepsSound_ordinary (keepsSound_own _) h
  · exact h.settled hs
  · exact deliverEvent_settled (hs.1.withCr2 _) h

theorem instrStep_settled (hs : s.Settled) (h : instrStep s = .next t) : t.Settled := by
  unfold instrStep at h
  split at h
  · refine exec_settled ?_ h
    exact hs.of_same rfl rfl rfl rfl
  · cases h
  · exact settle_settled hs.1 (fun _ _ h => by cases h) h

theorem runStep_settled (hs : s.Settled) (h : runStep s = .next t) : t.Settled := by
  unfold runStep at h
  cases hx : instrStep { s with tfAtStart := s.flag .tf } with
  | next u =>
    have hu : u.Settled := by
      refine instrStep_settled ?_ hx
      exact hs.of_same rfl rfl rfl rfl
    rw [hx, trapStep] at h
    split at h
    · exact deliverEvent_settled hu.1 h
    · cases h; exact hu
  | fault f => rw [hx] at h; cases h
  | refused r => rw [hx] at h; cases h

theorem callbackStep_settled {slot : Word} (hs : s.Settled) (h : callbackStep slot s = .next t) : t.Settled := by
  have ho := keepsSound_ordinary
  have hc := (s.hostCall_keepsSound (.callback slot)).settled hs
  exact settle_settled hc.1 (fun a u hr => (retFar_keeps ho.preserved ho.write.mark ho.draw (ho.reg _)
    (fun _ _ _ => .of_same rfl rfl rfl rfl) ho.eip _ _ _ a u hr).settled hc) h

theorem executeStep_settled (hs : s.Settled) (h : executeStep s = .next t) : t.Settled := by
  have ho := keepsSound_ordinary
  unfold executeStep at h
  split at h
  · next hf =>
    split at h
    · exact callbackStep_settled ((fetchAddress_keeps ho.preserved ho.write.mark _ _ _ _ hf).settled hs) h
    · exact runStep_settled hs h
  · exact runStep_settled hs h

theorem takeInterrupt_settled {vec : Byte} {rest : List Byte} (hs : s.Settled)
    (h : takeInterrupt vec rest s = .next t) : t.Settled := by
  have hq : State.Settled { s with pendingIrq := rest, activity := .running } :=
    hs.of_same rfl rfl rfl rfl
  simp only [takeInterrupt] at h
  split at h
  · cases h; exact (State.hostCall_keepsSound _ _).settled hq
  · exact deliverEvent_settled hq.1 h

theorem closeStep_inv {x : Step} (hx : ∀ u, x = .next u → u.Settled) (h : closeStep x = .next t) : t.Inv := by
  rcases x with u | ⟨_ | _⟩ | ⟨_ | _ | _⟩ <;> cases h
  exact u.atBoundary.inv_iff.2 ⟨(hx u rfl).of_same rfl rfl rfl rfl, rfl, rfl⟩

/-- Settles O32: every part of a step keeps canonical memory, its range and the fixed bits and ends at depth 0; the closing of
the step clears the single-step latch and the context of the instruction. -/
theorem stepKeepsInvariant : Obligations.StepKeepsInvariant := by
  unfold Obligations.StepKeepsInvariant
  intro s t hinv h
  have hs := (s.inv_iff.1 hinv).1
  cases hf : s.fatal with
  | some r => rw [step_of_latched hf] at h; cases h
  | none =>
    by_cases hi : s.flag .intf = false ∨ s.pendingIrq = []
    · rw [step_of_noInterrupt hf hi] at h
      split at h
      · cases h; exact hinv
      · exact closeStep_inv (fun _ => executeStep_settled hs) h
    · obtain ⟨hflag, hq⟩ := not_or.1 hi
      obtain ⟨v, rest, hq⟩ := List.exists_cons_of_ne_nil hq
      rw [step_of_interrupt hf (Bool.eq_true_of_not_eq_false hflag) hq] at h
      exact closeStep_inv (fun _ => takeInterrupt_settled hs) h

end Sys2Proof.Machine
end

section
/-! PROOF. The system registers are written only by their own instructions (10_state R43 to R49). -/

namespace Sys2Proof

/-- The instructions that make each kind of write of a system register. -/
def Instr.WritesSystem (i : Instr) : OwnWrite → Prop
  | .gdtr => ∃ m, i = .lgdtM m
  | .idtr => ∃ m, i = .lidtM m
  | .ldtr => ∃ rm, i = .lldtRm16 rm
  | .tr => ∃ rm, i = .ltrRm16 rm
  | .debug => ∃ md k r, i = .movDrR32 md k r
  | .control .cr0 => (∃ md r, i = .movCrR32 md .cr0 r) ∨ (∃ rm, i = .lmswRm16 rm) ∨ i = .clts
  | .control .cr2 => ∃ md r, i = .movCrR32 md .cr2 r
  | .control .cr3 => ∃ md r, i = .movCrR32 md .cr3 r
  | _ => True

theorem Instr.writesSystem_ownWrite (i : Instr) : i.WritesSystem i.ownWrite := by
  cases i with
  | lgdtM m => exact ⟨m, rfl⟩
  | lidtM m => exact ⟨m, rfl⟩
  | lldtRm16 rm => exact ⟨rm, rfl⟩
  | ltrRm16 rm => exact ⟨rm, rfl⟩
  | movDrR32 md k r => exact ⟨md, k, r, rfl⟩
  | movCrR32 md k r =>
    cases k
    · exact .inl ⟨md, r, rfl⟩
    · exact ⟨md, r, rfl⟩
    · exact ⟨md, r, rfl⟩
  | lmswRm16 rm => exact .inr (.inl ⟨rm, rfl⟩)
  | clts => exact .inr (.inr rfl)
  | _ => trivial

end Sys2Proof

namespace Sys2Proof.Machine

/-- The system registers but CR2, and the parameters. -/
def State.tables (s : State) : TableReg × TableReg × LdtReg × TaskReg × DebugRegs × Word × Word × Params :=
  (s.gdtr, s.idtr, s.ldtr, s.tr, s.dr, s.cr0, s.cr3, s.params)

/-- A change of system registers confined to one kind of write. -/
structure WritesOnly (o : OwnWrite) (s t : State) : Prop where
  gdtr : t.gdtr = s.gdtr ∨ o = .gdtr
  idtr : t.idtr = s.idtr ∨ o = .idtr
  ldtr : t.ldtr = s.ldtr ∨ o = .ldtr
  tr : t.tr = s.tr ∨ o = .tr
  dr : t.dr = s.dr ∨ o = .debug
  cr0 : t.cr0 = s.cr0 ∨ o = .control .cr0
  cr2 : t.cr2 = s.cr2 ∨ o = .control .cr2
  cr3 : t.cr3 = s.cr3 ∨ o = .control .cr3
  params : t.params = s.params

variable {o : OwnWrite} {s t u : State}

theorem WritesOnly.of_same (h : t.tables = s.tables) (h2 : t.cr2 = s.cr2) : WritesOnly o s t := by
  simp only [State.tables, Prod.mk.injEq] at h
  obtain ⟨hg, hi, hl, ht, hd, h0, h3, hp⟩ := h
  exact ⟨.inl hg, .inl hi, .inl hl, .inl ht, .inl hd, .inl h0, .inl h2, .inl h3, hp⟩

theorem WritesOnly.trans (h : WritesOnly o s t) (k : WritesOnly o t u) : WritesOnly o s u := by
  have step {α : Type} {a b c : α} {p : Prop} (h : b = a ∨ p) (k : c = b ∨ p) : c = a ∨ p :=
    k.elim (fun e => h.imp_left e.trans) .inr
  exact ⟨step h.gdtr k.gdtr, step h.idtr k.idtr, step h.ldtr k.ldtr, step h.tr k.tr, step h.dr k.dr, step h.cr0 k.cr0,
    step h.cr2 k.cr2, step h.cr3 k.cr3, k.params.trans h.params⟩

/-- With no host handler registered, the change is confined to one kind of write. -/
def Guarded (o : OwnWrite) (s t : State) : Prop :=
  s.noHandlers = true → WritesOnly o s t

theorem guarded_of_same (h : t.tables = s.tables) (h2 : t.cr2 = s.cr2) : Guarded o s t :=
  fun _ => .of_same h h2

theorem guarded_preserved (o : OwnWrite) : Preserved (Guarded o) where
  refl := fun _ => guarded_of_same rfl rfl
  trans := fun s t u h k hn => (h hn).trans (k (by rw [State.noHandlers, (h hn).params]; exact hn))

theorem guarded_ordinary (o : OwnWrite) : Ordinary (Guarded o) where
  preserved := guarded_preserved o
  write := fun _ _ _ _ => guarded_of_same rfl rfl
  draw := fun _ => guarded_of_same rfl rfl
  reg := fun _ _ _ => guarded_of_same rfl rfl
  eip := fun _ _ => guarded_of_same rfl rfl
  flag := fun _ _ _ => guarded_of_same rfl rfl
  popFlags := fun _ _ _ _ => guarded_of_same rfl rfl
  sahf := fun _ _ => guarded_of_same rfl rfl
  seg := fun _ _ _ _ => guarded_of_same rfl rfl
  event := fun _ _ => guarded_of_same rfl rfl
  halt := fun _ => guarded_of_same rfl rfl

theorem deliver_guarded (o : OwnWrite) (vec : Byte) (src : Source) (err : Option Half) (ret : Word) :
    Keeps (Guarded o) (deliver vec src err ret) :=
  (guarded_ordinary o).deliver (fun _ _ => guarded_of_same rfl rfl) (fun _ _ _ _ => guarded_of_same rfl rfl) _ _ _ _

theorem guarded_own (o : OwnWrite) : OfOwn (Guarded o) o := by
  cases o with
  | nothing => trivial
  | seg r => exact fun _ _ => guarded_of_same rfl rfl
  | softInt =>
    intro vec s a t h hn
    rw [softInt_run hn] at h
    exact deliver_guarded .softInt _ _ _ _ s a t h hn
  | control k => cases k <;> exact fun _ _ _ => by constructor <;> simp [State.setCreg]
  | _ => exact fun _ _ _ => by constructor <;> simp

/-- A delivery writes no system register but CR2. -/
theorem deliverEvent_tables {vec : Byte} {src : Source} {err : Option Half} {ret : Word}
    (h : deliverEvent vec src err ret s = .next t) : t.tables = s.tables := by
  have hR : Preserved (fun s t : State => t.tables = s.tables) := ⟨fun _ => rfl, fun _ _ _ h k => k.trans h⟩
  exact deliverEvent_keeps hR (fun _ _ => rfl) (fun s v => by simp [State.tables])
    (deliver_keeps hR (fun _ _ _ _ => rfl) (fun _ => rfl) (fun _ _ => rfl) (fun _ _ => rfl) (fun _ _ => rfl)
      (fun _ _ _ _ => rfl)) h

/-- Settles O33: an instruction's body makes only the writes of ordinary instructions and its own kind of write, and a fault
delivers with the system registers as they were, CR2 too while paging is off. -/
theorem systemRegistersGuarded : Obligations.SystemRegistersGuarded := by
  unfold Obligations.SystemRegistersGuarded
  intro i s t hn h
  obtain h | ⟨r, hr, h⟩ := exec_next (guarded_ordinary i.ownWrite) (guarded_own _) h
  · have g := h hn
    have hw {o : OwnWrite} (ho : i.ownWrite = o) : i.WritesSystem o := ho ▸ i.writesSystem_ownWrite
    exact ⟨g.gdtr.imp_right hw, g.idtr.imp_right hw, g.ldtr.imp_right hw, g.tr.imp_right hw, g.dr.imp_right hw,
      g.cr0.imp_right hw, g.cr3.imp_right hw, fun _ => g.cr2.imp_right hw, g.params⟩
  · have hs : t.tables = s.tables := by rw [deliverEvent_tables h]; simp [State.tables]
    have hcr2 : s.paging = false → t.cr2 = s.cr2 := fun hp => by
      rw [hr hp] at h
      exact deliverEvent_cr2 hp h
    simp only [State.tables, Prod.mk.injEq] at hs
    obtain ⟨hg, hi, hl, ht, hd, h0, h3, hp⟩ := hs
    exact ⟨.inl hg, .inl hi, .inl hl, .inl ht, .inl hd, .inl h0, .inl h3, fun hp => .inl (hcr2 hp), hp⟩

end Sys2Proof.Machine
end

section
/-! PROOF. The privilege level in protected mode (10_state R50): a far JMP or CALL keeps it, a delivery does not raise it
(60_exceptions R502), RETF and IRET do not lower it (46_control_transfer R450), and no other instruction changes it. -/

namespace Sys2Proof.Machine

variable {p : BitVec 2 → Prop} {L : BitVec 2} {s t : State}

/-- Protected mode with no host handler registered, at a level of which p holds. -/
def State.AtLevel (p : BitVec 2 → Prop) (s : State) : Prop :=
  s.noHandlers = true ∧ s.pe = true ∧ p s.cpl

/-- A level of which p holds stays one. -/
def KeepsLevel (p : BitVec 2 → Prop) (s t : State) : Prop :=
  s.AtLevel p → t.AtLevel p

namespace KeepsLevel

theorem preserved : Preserved (KeepsLevel p) :=
  ⟨fun _ => id, fun _ _ _ h k hs => k (h hs)⟩

theorem of_same (h0 : t.cr0 = s.cr0) (hp : t.params = s.params) (hc : t.segs.cs = s.segs.cs) : KeepsLevel p s t := by
  rintro ⟨hn, hpe, hl⟩
  exact ⟨by rw [State.noHandlers, hp]; exact hn, by rw [State.pe, h0]; exact hpe, by rw [State.cpl, hc]; exact hl⟩

/-- A write of CS sets the level to the low bits of the selector (10_state R50). -/
theorem of_cs (s : State) {g : Segment} (hg : p (rpl g.sel)) : KeepsLevel p s (s.setSeg .cs g) :=
  fun ⟨hn, hpe, _⟩ => ⟨hn, hpe, hg⟩

theorem of_cs_eip (s : State) {g : Segment} (hg : p (rpl g.sel)) (v : Word) :
    KeepsLevel p s { s.setSeg .cs g with eip := v } :=
  fun ⟨hn, hpe, _⟩ => ⟨hn, hpe, hg⟩

theorem write : OfWrite (KeepsLevel p) := fun _ _ _ _ => .of_same rfl rfl rfl

theorem draw : OfDraw (KeepsLevel p) := fun _ => .of_same rfl rfl rfl

theorem reg (r : Reg) : OfReg (KeepsLevel p) r := fun _ _ => .of_same rfl rfl rfl

theorem ss : OfSeg (KeepsLevel p) .ss := fun _ _ => .of_same rfl rfl rfl

end KeepsLevel

theorem rpl_withRpl (sel : Half) (lvl : BitVec 2) : rpl (withRpl sel lvl) = lvl := by
  have hmask : (0xFFFC : Half).getLsbD 0 = false ∧ (0xFFFC : Half).getLsbD 1 = false := by decide
  ext k hk
  obtain rfl | rfl : k = 0 ∨ k = 1 := by omega
  · simp [rpl, withRpl]
  · simp [rpl, withRpl]

/-- What follows a check may use what was checked. -/
theorem keeps_check_bind {R : State → State → Prop} {α : Type} {b : Bool} {e : Stop} {f : Unit → Exec α}
    (hf : b = true → Keeps R (f ())) : Keeps R (check b e >>= f) := by
  intro s a t h
  obtain ⟨_, _, hc, hf'⟩ := bind_ok.1 h
  obtain ⟨hb, rfl⟩ := check_ok.1 hc
  exact hf hb _ a t hf'

/-- What follows a read of the state may use that its level is in the range. -/
theorem keepsLevel_get_bind {α : Type} {f : State → Exec α} (hf : ∀ s, s.AtLevel p → Keeps (KeepsLevel p) (f s)) :
    Keeps (KeepsLevel p) (MonadState.get >>= f) :=
  .getBind fun s b t h hs => hf s hs s b t h hs

/-! ### A far transfer keeps the level (46_control_transfer R445) -/

theorem farTransfer_keepsLevel (osz : Size) (sel : Half) (off : Word) {between : Exec Unit}
    (hb : Keeps (KeepsLevel (· = L)) between) : Keeps (KeepsLevel (· = L)) (farTransfer osz sel off between) := by
  have hR := KeepsLevel.preserved (p := (· = L))
  refine keepsLevel_get_bind fun s ⟨_, hpe, hl⟩ => ?_
  rw [if_pos hpe]
  refine .bind hR (checkFarTarget_keeps hR KeepsLevel.write.mark _ _) fun d => .bind hR hb fun _ =>
    .bind hR (.modify fun x => .of_cs_eip x ?_ _) fun _ => markDescriptor_keeps hR KeepsLevel.write _ _ _
  exact (rpl_withRpl sel s.cpl).trans hl

theorem pushReturn_keepsLevel (osz : Size) : Keeps (KeepsLevel p) (pushReturn osz) :=
  pushReturn_keeps KeepsLevel.preserved KeepsLevel.draw KeepsLevel.write (KeepsLevel.reg _) osz

theorem readFarPointer_keepsLevel (osz : Size) (m : MemOp) : Keeps (KeepsLevel p) (readFarPointer osz m) :=
  readFarPointer_keeps KeepsLevel.preserved KeepsLevel.write.mark osz m

/-! ### A delivery does not leave for an outer level (60_exceptions R502, R503) -/

theorem enterLevel_keepsLevel (hs : s.cpl ≤ L) (sel : Half) (d : Desc) (n : Nat) (ext : Bool) :
    Keeps (KeepsLevel (· ≤ L)) (enterLevel s sel d n ext) := by
  have hR := KeepsLevel.preserved (p := (· ≤ L))
  have hw := KeepsLevel.write (p := (· ≤ L))
  have hpush := fun v => push_keeps hR hw (KeepsLevel.reg .esp) n v
  unfold enterLevel
  split
  · next hc =>
    have hlt : d.dpl < s.cpl := by simp only [Bool.and_eq_true, decide_eq_true_eq] at hc; exact hc.2
    refine .bind hR (stackSwitch_keeps hR hw.mark (KeepsLevel.reg _) KeepsLevel.ss _ _) fun _ =>
      .bind hR (.modify fun x => .of_cs x ?_) fun _ => .bind hR (selImage_keeps hR KeepsLevel.draw _ _) fun _ =>
      .bind hR (hpush _) fun _ => hpush _
    exact (rpl_withRpl sel d.dpl).symm ▸ BitVec.le_trans (BitVec.le_of_lt hlt) hs
  · exact .modify fun x => .of_cs x ((rpl_withRpl sel s.cpl).symm ▸ hs)

theorem deliverProtected_keepsLevel (vec : Byte) (src : Source) (err : Option Half) (ret : Word) :
    Keeps (KeepsLevel (· ≤ L)) (deliverProtected vec src err ret) := by
  have hR := KeepsLevel.preserved (p := (· ≤ L))
  have hw := KeepsLevel.write (p := (· ≤ L))
  have hpush := fun n v => push_keeps hR hw (KeepsLevel.reg .esp) n v
  refine keepsLevel_get_bind fun s ⟨_, _, hl⟩ => ?_
  exact .bind hR (readGate_keeps hR hw.mark vec src) fun g => .bind hR (readHandler_keeps hR hw.mark _ _) fun _ =>
    .bind hR (enterLevel_keepsLevel hl _ _ _ _) fun _ => .bind hR (hpush _ _) fun _ =>
    .bind hR (selImage_keeps hR KeepsLevel.draw _ _) fun _ => .bind hR (hpush _ _) fun _ =>
    .bind hR (hpush _ _) fun _ => .bind hR (.ite (hpush _ _) (.pure hR _)) fun _ =>
    .modify fun _ => .of_same rfl rfl rfl

theorem deliver_keepsLevel (vec : Byte) (src : Source) (err : Option Half) (ret : Word) :
    Keeps (KeepsLevel (· ≤ L)) (deliver vec src err ret) := by
  refine keepsLevel_get_bind fun s ⟨_, hpe, _⟩ => ?_
  rw [if_pos hpe]
  exact deliverProtected_keepsLevel vec src err ret

theorem softInt_keepsLevel (vec : Byte) : Keeps (KeepsLevel (· ≤ L)) (softInt vec) := by
  intro s a t h hs
  rw [softInt_run hs.1] at h
  exact deliver_keepsLevel _ _ _ _ s a t h hs

theorem overflowInt_keepsLevel : Keeps (KeepsLevel (· ≤ L)) overflowInt :=
  .bind KeepsLevel.preserved (.get KeepsLevel.preserved) fun _ =>
    .ite (softInt_keepsLevel _) (advance_keeps fun _ _ => .of_same rfl rfl rfl)

theorem tookFault_cpl (hn : s.noHandlers = true) (hpe : s.pe = true) (h : TookFault s t) : t.cpl ≤ s.cpl := by
  obtain ⟨r, h⟩ := h
  have hk : KeepsLevel (· ≤ s.cpl) (s.withCr2 r.cr2) t :=
    deliverEvent_keeps KeepsLevel.preserved (fun _ _ => .of_same rfl rfl rfl)
      (fun _ _ => .of_same (by simp) (by simp) (by simp)) deliver_keepsLevel h
  have hs : KeepsLevel (· ≤ s.cpl) s (s.withCr2 r.cr2) := .of_same (by simp) (by simp) (by simp)
  exact (hk (hs ⟨hn, hpe, BitVec.le_refl _⟩)).2.2

/-! ### A far return does not enter an inner level (46_control_transfer R450, R470) -/

theorem outwardReturn_keepsLevel {cs : Segment} (hcs : L ≤ rpl cs.sel) (osz : Size) (off : Word) (lvl : BitVec 2)
    (iw : Half) : Keeps (KeepsLevel (L ≤ ·)) (outwardReturn osz cs off lvl iw) := by
  have hR := KeepsLevel.preserved (p := (L ≤ ·))
  have hm := (KeepsLevel.write (p := (L ≤ ·))).mark
  have hesp := KeepsLevel.reg (p := (L ≤ ·)) .esp
  exact .bind hR (pop_keeps hR hm hesp _) fun _ => .bind hR (pop_keeps hR hm hesp _) fun _ =>
    .bind hR (stackSegFor_keeps hR hm _ _ _ _) fun _ => .bind hR (.modify fun x => .of_cs_eip x hcs _) fun _ =>
    .bind hR (.modify fun x => KeepsLevel.ss x _) fun _ =>
    .bind hR (setOuterPointer_keeps hR KeepsLevel.draw hesp _ _) fun _ => .bind hR (release_keeps hesp _) fun _ =>
    .modify fun _ => .of_same rfl rfl rfl

theorem farReturn_keepsLevel (osz : Size) (sel : Half) (off : Word) (iw : Half) :
    Keeps (KeepsLevel (L ≤ ·)) (farReturn osz sel off iw) := by
  have hR := KeepsLevel.preserved (p := (L ≤ ·))
  have hm := (KeepsLevel.write (p := (L ≤ ·))).mark
  refine keepsLevel_get_bind fun s ⟨_, _, hl⟩ => .bind hR (.check hR _ _) fun _ => keeps_check_bind fun hle => ?_
  have hsel : L ≤ rpl sel := BitVec.le_trans hl (by simpa using hle)
  exact .bind hR (readDescriptor_keeps hR hm _ _ _) fun d => .bind hR (.check hR _ _) fun _ =>
    .bind hR (.check hR _ _) fun _ => .bind hR (.check hR _ _) fun _ => .bind hR (.check hR _ _) fun _ =>
    .bind hR (release_keeps (KeepsLevel.reg _) _) fun _ =>
    .ite (.modify fun x => .of_cs_eip x hsel _) (outwardReturn_keepsLevel hsel _ _ _ _)

theorem returnTo_keepsLevel (osz : Size) (sel : Half) (off : Word) (iw : Half) :
    Keeps (KeepsLevel (L ≤ ·)) (returnTo osz sel off iw) := by
  refine keepsLevel_get_bind fun s ⟨_, hpe, _⟩ => ?_
  rw [if_pos hpe]
  exact farReturn_keepsLevel osz sel off iw

theorem retFar_keepsLevel (osz : Size) (iw : Half) : Keeps (KeepsLevel (L ≤ ·)) (retFar osz iw) := by
  have hR := KeepsLevel.preserved (p := (L ≤ ·))
  have hpop := fun n => pop_keeps hR KeepsLevel.write.mark (KeepsLevel.reg .esp) n
  exact .bind hR (hpop _) fun _ => .bind hR (hpop _) fun _ => returnTo_keepsLevel _ _ _ _

theorem interruptReturn_keepsLevel (osz : Size) : Keeps (KeepsLevel (L ≤ ·)) (interruptReturn osz) := by
  have hR := KeepsLevel.preserved (p := (L ≤ ·))
  have hpop := fun n => pop_keeps hR KeepsLevel.write.mark (KeepsLevel.reg .esp) n
  exact .bind hR (.get hR) fun _ => .bind hR (.check hR _ _) fun _ => .bind hR (hpop _) fun _ =>
    .bind hR (hpop _) fun _ => .bind hR (hpop _) fun _ => .bind hR (.check hR _ _) fun _ =>
    .bind hR (returnTo_keepsLevel _ _ _ _) fun _ => .modify fun _ => .of_same rfl rfl rfl

/-! ### Every instruction -/

theorem sameLevel_ordinary : Ordinary (fun s t : State => t.cpl = s.cpl) where
  preserved := ⟨fun _ => rfl, fun _ _ _ h k => k.trans h⟩
  write := fun _ _ _ _ => rfl
  draw := fun _ => rfl
  reg := fun _ _ _ => rfl
  eip := fun _ _ => rfl
  flag := fun _ _ _ => rfl
  popFlags := fun _ _ _ _ => rfl
  sahf := fun _ _ => rfl
  seg := fun r hr _ _ => by cases r with
    | cs => exact absurd rfl hr
    | _ => rfl
  event := fun _ _ => rfl
  halt := fun _ => rfl

/-- An instruction that writes neither CS nor is a software interrupt keeps the level, unless it takes a fault. -/
theorem exec_sameLevel {i : Instr} (hcs : i.ownWrite ≠ .seg .cs) (hint : i.ownWrite ≠ .softInt)
    (h : exec i s = .next t) : t.cpl = s.cpl ∨ TookFault s t := by
  have ho : OfOwn (fun s t : State => t.cpl = s.cpl) i.ownWrite := by
    cases hi : i.ownWrite with
    | nothing => trivial
    | control k => cases k <;> exact fun _ _ => rfl
    | seg r => exact sameLevel_ordinary.seg r (fun hr => hcs (hr ▸ hi))
    | softInt => exact absurd hi hint
    | _ => exact fun _ _ => rfl
  exact (exec_next sameLevel_ordinary ho h).imp_right fun ⟨r, _, h⟩ => ⟨r, h⟩

/-- An instruction whose body keeps a range of levels stays in it, unless it takes a fault. -/
theorem runInstr_level {body : Exec Unit} (hk : Keeps (KeepsLevel p) body) (hn : s.noHandlers = true)
    (hpe : s.pe = true) (hp : p s.cpl) (h : runInstr body s = .next t) : p t.cpl ∨ TookFault s t :=
  (runInstr_next KeepsLevel.preserved KeepsLevel.write.mark hk h).imp_left fun h => (h ⟨hn, hpe, hp⟩).2.2

/-- CS is no destination of MOV (30_encoding R204). -/
theorem movSregRm16_wf {c : Ctx} {r : SReg} {rm : RM} (h : (Instr.movSregRm16 r rm).wf c = true) : r ≠ .cs := by
  rintro rfl
  simp [Instr.wf, Instr.operandsOk, Instr.form, Tail.fits, RegField.fits] at h

/-- What an instruction may do to the level when it takes no fault. -/
def LevelRule (i : Instr) (s t : State) : Prop :=
  (t.cpl < s.cpl → (∃ v, i = .intIb v) ∨ i = .int3 ∨ i = .into) ∧
    (s.cpl < t.cpl → i = .retf ∨ (∃ iw, i = .retfIw iw) ∨ i = .iret)

theorem LevelRule.of_eq {i : Instr} (h : t.cpl = s.cpl) : LevelRule i s t := by
  rw [LevelRule, h]
  exact ⟨fun hlt => absurd hlt (BitVec.lt_irrefl _), fun hlt => absurd hlt (BitVec.lt_irrefl _)⟩

theorem exec_levelRule {i : Instr} (hwf : i.wf s.ctx = true) (hn : s.noHandlers = true) (hpe : s.pe = true)
    (h : exec i s = .next t) : LevelRule i s t ∨ TookFault s t := by
  have far {body : Exec Unit} (hk : Keeps (KeepsLevel (· = s.cpl)) body) (h : runInstr body s = .next t) :
      LevelRule i s t ∨ TookFault s t := (runInstr_level hk hn hpe rfl h).imp_left .of_eq
  have inward {body : Exec Unit} (hi : (∃ v, i = .intIb v) ∨ i = .int3 ∨ i = .into)
      (hk : Keeps (KeepsLevel (· ≤ s.cpl)) body) (h : runInstr body s = .next t) : LevelRule i s t ∨ TookFault s t :=
    (runInstr_level hk hn hpe (BitVec.le_refl _) h).imp_left fun hle =>
      ⟨fun _ => hi, fun hlt => absurd hlt (BitVec.not_lt.2 hle)⟩
  have outward {body : Exec Unit} (hi : i = .retf ∨ (∃ iw, i = .retfIw iw) ∨ i = .iret)
      (hk : Keeps (KeepsLevel (s.cpl ≤ ·)) body) (h : runInstr body s = .next t) : LevelRule i s t ∨ TookFault s t :=
    (runInstr_level hk hn hpe (BitVec.le_refl _) h).imp_left fun hle =>
      ⟨fun hlt => absurd hlt (BitVec.not_lt.2 hle), fun _ => hi⟩
  have hR := KeepsLevel.preserved (p := (· = s.cpl))
  cases i with
  | jmpFarPtr off sel => exact far (farTransfer_keepsLevel _ _ _ (.pure hR _)) h
  | jmpFarMem m =>
    exact far (.bind hR (readFarPointer_keepsLevel _ _) fun _ => farTransfer_keepsLevel _ _ _ (.pure hR _)) h
  | callFarPtr off sel => exact far (farTransfer_keepsLevel _ _ _ (pushReturn_keepsLevel _)) h
  | callFarMem m =>
    exact far (.bind hR (readFarPointer_keepsLevel _ _) fun _ =>
      farTransfer_keepsLevel _ _ _ (pushReturn_keepsLevel _)) h
  | intIb v => exact inward (.inl ⟨v, rfl⟩) (softInt_keepsLevel _) h
  | int3 => exact inward (.inr (.inl rfl)) (softInt_keepsLevel _) h
  | into => exact inward (.inr (.inr rfl)) overflowInt_keepsLevel h
  | retf => exact outward (.inl rfl) (retFar_keepsLevel _ _) h
  | retfIw iw => exact outward (.inr (.inl ⟨iw, rfl⟩)) (retFar_keepsLevel _ _) h
  | iret => exact outward (.inr (.inr rfl)) (interruptReturn_keepsLevel _) h
  | movSregRm16 r rm =>
    have hr := movSregRm16_wf hwf
    exact (exec_sameLevel (fun he => hr (by cases he; rfl)) (fun he => by cases he) h).imp_left .of_eq
  | _ => exact (exec_sameLevel (fun he => by cases he) (fun he => by cases he) h).imp_left .of_eq

/-- Settles O35: the bodies of the far transfers, of the software interrupts and of the far returns keep the level equal, at
most and at least what it was, every other body leaves CS alone, and a fault's delivery keeps it at most what it was. -/
theorem levelChanges : Obligations.LevelChanges := by
  unfold Obligations.LevelChanges
  intro i s t hwf hpe hn h
  obtain ⟨hin, hout⟩ | hf := exec_levelRule hwf hn hpe h
  · exact ⟨fun hlt => .inr (hin hlt), hout⟩
  · exact ⟨fun _ => .inl hf, fun hlt => absurd hlt (BitVec.not_lt.2 (tookFault_cpl hn hpe hf))⟩

end Sys2Proof.Machine
end

section
/-! PROOF. The views of the general registers (10_state R32): a write changes the bits its view names and no other. -/

namespace Sys2Proof.Machine

/-- The part of a word above a bit holds the word's bits from there on. -/
theorem getLsbD_high (x : Word) {lo len k : Nat} (hlen : lo + len = 32) (hk : lo ≤ k) :
    (x.extractLsb' lo len).getLsbD (k - lo) = x.getLsbD k := by
  rw [BitVec.getLsbD_extractLsb', Nat.add_sub_of_le hk]
  by_cases h : k < 32
  · simp [show k - lo < len by omega]
  · rw [BitVec.getLsbD_of_ge x k (Nat.le_of_not_lt h), Bool.and_false]

theorem getLsbD_putLow16 (old : Word) (v : Half) (k : Nat) :
    (putLow16 old v).getLsbD k = if k < 16 then v.getLsbD k else old.getLsbD k := by
  rw [putLow16, BitVec.getLsbD_append]
  split
  · rfl
  · next h => exact getLsbD_high old rfl (Nat.le_of_not_lt h)

theorem getLsbD_putByte_low (old : Word) (v : Byte) (k : Nat) :
    (putByte old false v).getLsbD k = if k < 8 then v.getLsbD k else old.getLsbD k := by
  simp only [putByte, Bool.false_eq_true, if_false, BitVec.getLsbD_append]
  split
  · rfl
  · next h => exact getLsbD_high old rfl (Nat.le_of_not_lt h)

theorem getLsbD_putByte_high (old : Word) (v : Byte) (k : Nat) :
    (putByte old true v).getLsbD k = if 8 ≤ k ∧ k < 16 then v.getLsbD (k - 8) else old.getLsbD k := by
  simp only [putByte, if_true, BitVec.getLsbD_append]
  by_cases hlo : k < 8
  · simp [hlo, show ¬ 8 ≤ k by omega]
  · by_cases hhi : k < 16
    · simp [hlo, hhi, show k - 8 < 8 by omega, show 8 ≤ k by omega]
    · simp only [hlo, hhi, show ¬ k - 8 < 8 by omega, and_false, if_false]
      rw [Nat.sub_sub]
      exact getLsbD_high old rfl (Nat.le_of_not_lt hhi)

/-- A write through a view changes the bits that the view names, and no other of any register (10_state R32). -/
theorem State.getLsbD_setView (s : State) (w : Size) (r : Reg) (v : BitVec w.bits) (q : Reg) (k : Nat) :
    ((s.setView w r v).regs.get q).getLsbD k =
      (let home := if w = .b8 then (byteHome r).1 else r
       let lo := if w = .b8 ∧ (byteHome r).2 = true then 8 else 0
       if q = home ∧ lo ≤ k ∧ k < lo + w.bits then v.getLsbD (k - lo) else (s.regs.get q).getLsbD k) := by
  by_cases hq : q = if w = .b8 then (byteHome r).1 else r
  · subst hq
    cases w with
    | b8 =>
      cases hb : (byteHome r).2 with
      | false => simp [State.setView, State.reg, hb, getLsbD_putByte_low, Size.bits]
      | true => simp [State.setView, State.reg, hb, getLsbD_putByte_high, Size.bits]
    | b16 => simp [State.setView, State.reg, getLsbD_putLow16, Size.bits]
    | b32 =>
      by_cases hk : k < 32
      · simp [State.setView, Size.bits, hk]
      · have hk' := Nat.le_of_not_lt hk
        simp [State.setView, Size.bits, hk, BitVec.getLsbD_of_ge v k hk', BitVec.getLsbD_of_ge (s.regs.get r) k hk']
  · rw [State.setView_get s w r q v hq]
    simp only [hq, false_and, if_false]

/-- Settles O48: each view is the bits of its definition, a write is read back, and bit k of register q changes only if the
view written holds it. -/
theorem registerViews : Obligations.RegisterViews := by
  unfold Obligations.RegisterViews
  exact ⟨fun _ _ => ⟨rfl, rfl⟩, fun _ => ⟨rfl, rfl, rfl, rfl, rfl, rfl, rfl, rfl⟩,
    fun s w r v q k => ⟨s.view_setView w r v, s.getLsbD_setView w r v q k⟩⟩

end Sys2Proof.Machine
end

section
/-! PROOF. Reset (10_state R60). -/

namespace Sys2Proof.Machine

/-- At reset the six segment registers hold one value (10_state R60, 92_eei_decisions D32). -/
theorem resetWith_seg (params : Params) (regs : Regs) (mem : List Host.Cell) (r : SReg) :
    (State.resetWith params regs mem).seg r = resetSegment := by
  cases r <;> rfl

/-- Settles O30: reset writes every register but the general registers and memory, which it takes as they are given. -/
theorem resetValues : Obligations.ResetValues := by
  unfold Obligations.ResetValues
  rintro params regs mem s rfl
  exact ⟨rfl, rfl, resetWith_seg params regs mem, rfl, rfl, rfl, rfl, rfl, rfl, rfl, rfl, rfl, rfl, rfl, rfl, rfl, rfl, rfl⟩

/-- Settles O31: memory is empty at reset, EFLAGS is 2 and nothing of a step has begun. -/
theorem resetMeetsInvariant : Obligations.ResetMeetsInvariant := by
  unfold Obligations.ResetMeetsInvariant
  exact ⟨rfl, rfl, by decide, rfl, rfl⟩

end Sys2Proof.Machine
end

section
/-! PROOF. Physical memory (20_memory R81 to R83): the addresses of an access, the bytes of a number, what a store of bytes
reads back as, and accesses that leave memory. -/

namespace Sys2Proof.Machine

/-! ### The addresses of an access and the bytes of a number -/

theorem add_one_add_ofNat (a : Word) (i : Nat) : a + 1 + BitVec.ofNat 32 i = a + BitVec.ofNat 32 (i + 1) := by
  rw [BitVec.ofNat_add]
  ac_rfl

theorem addrs_eq_map (a : Word) (n : Nat) : addrs a n = (List.range n).map fun i => a + BitVec.ofNat 32 i := by
  induction n generalizing a with
  | zero => rfl
  | succ n ih =>
    simpa [addrs, ih, List.range_succ_eq_map] using fun i (_ : i < n) => add_one_add_ofNat a i

theorem leBytes_eq_map (n v : Nat) : leBytes n v = (List.range n).map fun i => BitVec.ofNat 8 (v / 256 ^ i) := by
  induction n generalizing v with
  | zero => rfl
  | succ n ih => simp [leBytes, ih, List.range_succ_eq_map, Nat.pow_succ', Nat.div_div_eq_div_mul]

@[simp] theorem addrs_length (a : Word) (n : Nat) : (addrs a n).length = n := by
  simp [addrs_eq_map]

theorem mem_addrs {a x : Word} {n : Nat} : x ∈ addrs a n ↔ ∃ i < n, a + BitVec.ofNat 32 i = x := by
  simp [addrs_eq_map]

/-- No two of at most 2^32 consecutive addresses are one, although addresses are taken modulo 2^32. -/
theorem addrs_nodup (a : Word) {n : Nat} (hn : n ≤ 4294967296) : (addrs a n).Nodup := by
  rw [addrs_eq_map]
  refine List.nodup_range.map_on fun i hi j hj h => ?_
  rw [List.mem_range] at hi hj
  have h' := congrArg BitVec.toNat (BitVec.add_right_inj a |>.1 h)
  rwa [BitVec.toNat_ofNat, BitVec.toNat_ofNat, Nat.mod_eq_of_lt (by omega), Nat.mod_eq_of_lt (by omega)] at h'

/-- Digit i to the base 256 of a little-endian number is its byte i (20_memory R81). -/
theorem leNat_digit (bs : List Byte) (i : Nat) : leNat bs / 256 ^ i % 256 = (bs.getD i 0).toNat := by
  induction bs generalizing i with
  | nil => simp [leNat]
  | cons b bs ih =>
    have hb := b.isLt
    cases i with
    | zero => simp only [leNat, List.getD_cons_zero]; omega
    | succ i =>
      rw [List.getD_cons_succ, ← ih, Nat.pow_succ', ← Nat.div_div_eq_div_mul, leNat,
        show (b.toNat + 256 * leNat bs) / 256 = leNat bs by omega]

/-! ### A store of bytes -/

theorem wf_storeBytes (as : List Word) (bs : List Byte) {m : List Host.Cell} (hm : Memory.wf m = true) :
    Memory.wf (storeBytes as bs m) = true := by
  induction as generalizing bs m with
  | nil => exact hm
  | cons a as ih =>
    cases bs with
    | nil => exact hm
    | cons b bs => exact ih bs (Memory.wf_write a.toNat b hm)

/-- A store changes no byte at another address (20_memory R83). -/
theorem read_storeBytes_of_ne {as : List Word} (bs : List Byte) (m : List Host.Cell) {c : Nat}
    (hc : ∀ a ∈ as, c ≠ a.toNat) : Memory.read (storeBytes as bs m) c = Memory.read m c := by
  induction as generalizing bs m with
  | nil => rfl
  | cons a as ih =>
    obtain ⟨ha, has⟩ := List.forall_mem_cons.1 hc
    cases bs with
    | nil => rfl
    | cons b bs => rw [storeBytes, ih bs _ has, Memory.read_write_ne m b ha]

/-- A store at distinct addresses is read back (20_memory R81, R83). -/
theorem map_read_storeBytes {as : List Word} {bs : List Byte} {m : List Host.Cell} (hm : Memory.wf m = true)
    (hd : as.Nodup) (hl : as.length = bs.length) :
    as.map (fun a => Memory.read (storeBytes as bs m) a.toNat) = bs := by
  induction as generalizing bs m with
  | nil => exact (List.length_eq_zero_iff.1 hl.symm).symm
  | cons a as ih =>
    cases bs with
    | nil => cases hl
    | cons b bs =>
      obtain ⟨ha, hd⟩ := List.nodup_cons.1 hd
      have hhead : ∀ x ∈ as, a.toNat ≠ x.toNat := fun x hx h => ha (BitVec.eq_of_toNat_eq h ▸ hx)
      simp only [storeBytes, List.map_cons, read_storeBytes_of_ne bs _ hhead, Memory.read_write _ _ _ hm, if_true,
        ih (Memory.wf_write a.toNat b hm) hd (Nat.succ.inj hl)]

/-! ### Accesses that leave memory (20_memory R82, 92_eei_decisions D9) -/

theorem physReads_outOfRange {s : State} {as : List Word} (h : s.inRam as = false) :
    physReads as s = .error (.fatal .physicalOutOfRange) := by
  induction as with
  | nil => cases h
  | cons a as ih =>
    simp only [physReads, physRead, bind_run, get_run]
    cases ha : decide (a.toNat < s.params.memSize) with
    | false => rfl
    | true => simp only [check_true, pure_run, ih (by simpa [State.inRam, ha] using h)]

theorem physWrites_outOfRange {s : State} {as : List Word} {bs : List Byte} (hl : as.length = bs.length)
    (h : s.inRam as = false) : physWrites as bs s = .error (.fatal .physicalOutOfRange) := by
  induction as generalizing s bs with
  | nil => cases h
  | cons a as ih =>
    cases bs with
    | nil => cases hl
    | cons b bs =>
      simp only [physWrites, physWrite, bind_run, get_run]
      cases ha : decide (a.toNat < s.params.memSize) with
      | false => rfl
      | true =>
        simp only [check_true, set_run]
        exact ih (Nat.succ.inj hl) (by simpa [State.inRam, ha] using h)

theorem memRead_outOfRange {s : State} {a : Word} {n : Nat} (h : s.inRam (addrs a n) = false) :
    memRead a n s = .error (.fatal .physicalOutOfRange) := by
  simp only [memRead, bind_run, physReads_outOfRange h]

theorem memWrite_outOfRange {s : State} {a : Word} {n : Nat} (v : Nat) (h : s.inRam (addrs a n) = false) :
    memWrite a n v s = .error (.fatal .physicalOutOfRange) :=
  physWrites_outOfRange (by simp) h

/-! ### The obligation -/

theorem numberOf_addrs_lt (s : State) (a : Word) (n : Nat) : s.numberOf (addrs a n) < 256 ^ n := by
  simpa [State.numberOf] using leNat_lt ((addrs a n).map fun x => Memory.read s.mem x.toNat)

theorem numberOf_addrs_digit (s : State) (a : Word) {n i : Nat} (hi : i < n) :
    s.numberOf (addrs a n) / 256 ^ i % 256 = (Memory.read s.mem (a + BitVec.ofNat 32 i).toNat).toNat := by
  simp [State.numberOf, leNat_digit, addrs_eq_map, hi]

/-- Byte i of a number that was stored is read back at its address (20_memory R83). -/
theorem read_storeBytes_addrs {m : List Host.Cell} (hm : Memory.wf m = true) (a : Word) {n i : Nat} (v : Nat)
    (hn : n ≤ 4294967296) (hi : i < n) :
    Memory.read (storeBytes (addrs a n) (leBytes n v) m) (a + BitVec.ofNat 32 i).toNat =
      BitVec.ofNat 8 (v / 256 ^ i) := by
  have hall := map_read_storeBytes hm (addrs_nodup a hn) (bs := leBytes n v) (by simp)
  have hbyte := congrArg (fun l => l.getD i 0) hall
  simpa [addrs_eq_map, leBytes_eq_map, hi] using hbyte

/-- Settles O41: a read in memory is the number of its bytes, a write is a store of them, and the first address beyond memory
stops either. -/
theorem physicalAccesses : Obligations.PhysicalAccesses := by
  unfold Obligations.PhysicalAccesses
  refine fun s a n v => ⟨fun h => ⟨?_, ?_⟩, fun h => ⟨memRead_outOfRange h, memWrite_outOfRange v h⟩⟩
  · exact ⟨_, memRead_run h, numberOf_addrs_lt s a n, fun i hi => numberOf_addrs_digit s a hi⟩
  · refine ⟨_, physWrites_run (leBytes n v) h, rfl, fun hwf hn => ⟨wf_storeBytes _ _ hwf, ?_, fun b hb => ?_⟩⟩
    · exact fun i hi => read_storeBytes_addrs hwf a v hn hi
    · refine read_storeBytes_of_ne _ _ fun x hx => ?_
      obtain ⟨i, hi, rfl⟩ := mem_addrs.1 hx
      exact hb i hi

end Sys2Proof.Machine
end

section
/-! PROOF. Segments and descriptors (20_memory R100 to R113): what a segment check answers, by bounds, mode and rights; the
fields of a descriptor; the descriptor of a selector. -/

namespace Sys2Proof.Machine

/-! ### The segment check (20_memory R102, R103) -/

section
variable {s : State} {r : SReg} {off : Word} {n : Nat}

theorem checkSegment_outOfBounds (acc : Access) (h : (s.seg r).inBounds off n = false) :
    checkSegment r off n acc s = .error (segmentFault r) := by
  simp only [checkSegment, bind_run, get_run, h, check_false]

/-- Within bounds nothing is checked in real mode, and the rights in protected mode. -/
theorem checkSegment_inBounds (acc : Access) (h : (s.seg r).inBounds off n = true) :
    checkSegment r off n acc s = if s.pe then checkRights r (s.seg r) acc s else .ok ((), s) := by
  simp only [checkSegment, bind_run, get_run, h, check_true]
  split <;> rfl

theorem checkRights_write (r : SReg) (g : Segment) (s : State) :
    checkRights r g .write s = if g.valid && g.ar.writable then .ok ((), s) else .error (segmentFault r) := by
  simp only [checkRights]
  cases g.valid && g.ar.writable <;> rfl

theorem checkRights_read (r : SReg) (g : Segment) (s : State) :
    checkRights r g .read s =
      if g.valid && (!g.ar.code || g.ar.readWrite) then .ok ((), s)
      else .error (if g.valid then protection 0 else segmentFault r) := by
  simp only [checkRights, bind_run]
  cases g.valid
  · rfl
  · cases !g.ar.code || g.ar.readWrite <;> rfl

/-- The limit check in numbers: above the limit of an expand-down segment and at most its size, else at most the limit. -/
theorem Segment.inBounds_iff (g : Segment) (off : Word) (n : Nat) :
    g.inBounds off n = true ↔ if g.ar.s = true ∧ g.ar.type.getLsbD 3 = false ∧ g.ar.type.getLsbD 2 = true then
        g.limit.toNat < off.toNat ∧ off.toNat + n - 1 ≤ (if g.ar.db then 0xFFFFFFFF else 0xFFFF)
      else off.toNat + n - 1 ≤ g.limit.toNat := by
  have hdown : g.ar.expandDown = true ↔ g.ar.s = true ∧ g.ar.type.getLsbD 3 = false ∧ g.ar.type.getLsbD 2 = true := by
    simp only [Rights.expandDown, Rights.code, Rights.conforming, Bool.and_eq_true, Bool.not_eq_true', and_assoc]
  simp only [Segment.inBounds, hdown]
  split <;> simp only [Bool.and_eq_true, decide_eq_true_eq]

end

/-- Settles O42: outside the limit every access stops; within it the rights decide, in protected mode only, and a fetch has
none to check. -/
theorem segmentChecks : Obligations.SegmentChecks := by
  unfold Obligations.SegmentChecks
  rintro s r off n g e rfl - rfl inside hinside
  rw [← Segment.inBounds_iff] at hinside
  refine ⟨fun h acc => ?_, fun h hpe acc => ?_, fun h hpe => ?_⟩
  · exact checkSegment_outOfBounds acc (by simpa [hinside] using h)
  · rw [checkSegment_inBounds acc (hinside.1 h), hpe]; rfl
  · have hrun : ∀ acc, checkSegment r off n acc s = checkRights r (s.seg r) acc s := fun acc => by
      rw [checkSegment_inBounds acc (hinside.1 h), hpe, if_pos rfl]
    simp only [hrun, checkRights_write, checkRights_read]
    refine ⟨rfl, fun hv => ?_, fun hv => ⟨?_, ?_⟩⟩
    · rw [hv]; exact ⟨rfl, rfl⟩
    · simp [hv, Rights.writable, Rights.code, Rights.readWrite, segmentFault]
    · simp only [hv, Rights.code, Rights.readWrite, Bool.true_and, if_true]
      cases (s.seg r).ar.type.getLsbD 3 <;> cases (s.seg r).ar.type.getLsbD 1 <;> rfl

/-! ### The fields of a descriptor, in its bytes (20_memory R110 to R113) -/

/-- A field of a field of a number is a field of the number. -/
theorem extractLsb'_extractLsb'_of_add_le {w lo len i n : Nat} (x : BitVec w) (h : i + n ≤ len) :
    (x.extractLsb' lo len).extractLsb' i n = x.extractLsb' (lo + i) n := by
  ext j hj
  simp [show i + j < len by omega, Nat.add_assoc]

theorem extractLsb'_eightBytes (d0 d1 d2 d3 d4 d5 d6 d7 : Byte) :
    let d := d7 ++ d6 ++ d5 ++ d4 ++ d3 ++ d2 ++ d1 ++ d0
    d.extractLsb' 0 8 = d0 ∧ d.extractLsb' 8 8 = d1 ∧ d.extractLsb' 16 8 = d2 ∧ d.extractLsb' 24 8 = d3 ∧
      d.extractLsb' 32 8 = d4 ∧ d.extractLsb' 40 8 = d5 ∧ d.extractLsb' 48 8 = d6 ∧ d.extractLsb' 56 8 = d7 := by
  simp only [-Nat.reduceAdd, BitVec.extractLsb'_append_eq_ite]
  simp

/-- A descriptor of eight bytes has them in memory order. -/
theorem Desc.bytes {d0 d1 d2 d3 d4 d5 d6 d7 : Byte} {d : Desc}
    (hd : d = d7 ++ d6 ++ d5 ++ d4 ++ d3 ++ d2 ++ d1 ++ d0) :
    d.extractLsb' 0 8 = d0 ∧ d.extractLsb' 8 8 = d1 ∧ d.extractLsb' 16 8 = d2 ∧ d.extractLsb' 24 8 = d3 ∧
      d.extractLsb' 32 8 = d4 ∧ d.extractLsb' 40 8 = d5 ∧ d.extractLsb' 48 8 = d6 ∧ d.extractLsb' 56 8 = d7 := by
  subst hd
  exact extractLsb'_eightBytes d0 d1 d2 d3 d4 d5 d6 d7

section
variable (d : Desc)

theorem Desc.base_eq_bytes :
    d.base = d.extractLsb' 56 8 ++ d.extractLsb' 32 8 ++ d.extractLsb' 24 8 ++ d.extractLsb' 16 8 := by
  rw [BitVec.append_assoc, BitVec.append_assoc]
  simp only [BitVec.extractLsb'_append_extractLsb'_eq_extractLsb']
  rfl

theorem Desc.limit20_eq_bytes :
    d.limit20 = (d.extractLsb' 48 8).extractLsb' 0 4 ++ d.extractLsb' 8 8 ++ d.extractLsb' 0 8 := by
  rw [BitVec.append_assoc, extractLsb'_extractLsb'_of_add_le d (by decide)]
  simp only [BitVec.extractLsb'_append_extractLsb'_eq_extractLsb']
  rfl

theorem Desc.rights_eq_bytes :
    d.rights =
      { type := (d.extractLsb' 40 8).extractLsb' 0 4, s := (d.extractLsb' 40 8).getLsbD 4
        dpl := (d.extractLsb' 40 8).extractLsb' 5 2, p := (d.extractLsb' 40 8).getLsbD 7
        db := (d.extractLsb' 48 8).getLsbD 6, g := (d.extractLsb' 48 8).getLsbD 7 } := by
  rw [extractLsb'_extractLsb'_of_add_le d (by decide), extractLsb'_extractLsb'_of_add_le d (by decide)]
  simp [Desc.rights, Desc.type, Desc.s, Desc.dpl, Desc.present]

theorem Desc.gateSelector_eq_bytes : d.gateSelector = d.extractLsb' 24 8 ++ d.extractLsb' 16 8 :=
  (BitVec.extractLsb'_append_extractLsb'_eq_extractLsb' (len₁ := 8) (len₂ := 8) rfl).symm

theorem Desc.gateOffset_true_eq_bytes :
    d.gateOffset true = d.extractLsb' 56 8 ++ d.extractLsb' 48 8 ++ d.extractLsb' 8 8 ++ d.extractLsb' 0 8 := by
  rw [BitVec.append_assoc]
  simp only [BitVec.extractLsb'_append_extractLsb'_eq_extractLsb']
  rfl

theorem Desc.gateOffset_false_eq_bytes :
    d.gateOffset false = (0 : Half) ++ d.extractLsb' 8 8 ++ d.extractLsb' 0 8 := by
  rw [BitVec.append_assoc]
  simp only [BitVec.extractLsb'_append_extractLsb'_eq_extractLsb']
  exact BitVec.setWidth_eq_append (w := 32) (v := 16) (x := d.extractLsb' 0 16) (by decide)

/-- The limit in bytes: with granularity the limit counts pages of 4096 bytes (20_memory R112). -/
theorem Desc.byteLimit_toNat :
    d.byteLimit.toNat = if d.getLsbD 55 then d.limit20.toNat * 4096 + 4095 else d.limit20.toNat := by
  have hlt := d.limit20.isLt
  unfold Desc.byteLimit
  split
  · simp only [BitVec.toNat_or, BitVec.toNat_shiftLeft, BitVec.toNat_setWidth]
    rw [Nat.mod_eq_of_lt (by omega), Nat.mod_eq_of_lt (by omega)]
    exact (Nat.shiftLeft_add_eq_or_of_lt (b := 4095) (i := 12) (by decide) _).symm.trans (by omega)
  · simp only [BitVec.toNat_setWidth]
    omega

end

/-- Settles O45: each field is made of whole bytes or of bits of one byte. -/
theorem descriptorFields : Obligations.DescriptorFields := by
  unfold Obligations.DescriptorFields
  intro d0 d1 d2 d3 d4 d5 d6 d7 d hd
  obtain ⟨h0, h1, h2, h3, h4, h5, h6, h7⟩ := Desc.bytes hd
  have hgran : d.getLsbD 55 = d6.getLsbD 7 := congrArg Rights.g (h6 ▸ d.rights_eq_bytes)
  refine ⟨?_, ?_, ?_, ?_, ?_, ?_, ?_⟩
  · rw [d.base_eq_bytes, h7, h4, h3, h2]
  · rw [d.limit20_eq_bytes, h6, h1, h0]
  · rw [d.rights_eq_bytes, h6, h5]
  · rw [d.byteLimit_toNat, hgran]
  · rw [d.gateSelector_eq_bytes, h3, h2]
  · rw [d.gateOffset_true_eq_bytes, h7, h6, h1, h0]
  · rw [d.gateOffset_false_eq_bytes, h1, h0]

/-! ### The descriptor a selector names (20_memory R105) -/

section
variable {s : State} {sel : Half} {vec : Byte} {ext : Bool}

theorem readDescriptor_invalidLdt (ht : sel.getLsbD 2 = true) (hv : s.ldtr.valid = false) :
    readDescriptor sel vec ext s = .error (raiseErr vec (selError sel ext)) := by
  simp only [readDescriptor, bind_run, get_run, ht, hv, Bool.not_true, Bool.or_self, check_false]

/-- Whether LDTR is valid or not, the fault beyond the table's limit is the same. -/
theorem readDescriptor_beyondLimit (hl : s.tableLimit sel < tableOffset sel + 7) :
    readDescriptor sel vec ext s = .error (raiseErr vec (selError sel ext)) := by
  simp only [readDescriptor, bind_run, get_run, decide_eq_false (Nat.not_le.2 hl), check_false]
  cases !sel.getLsbD 2 || s.ldtr.valid <;> rfl

theorem readDescriptor_run (hw : s.plainWalks = true) (hv : sel.getLsbD 2 = true → s.ldtr.valid = true)
    (hl : tableOffset sel + 7 ≤ s.tableLimit sel)
    (hb : s.backed .read false (s.tableBase sel + BitVec.ofNat 32 (tableOffset sel)) 8 = true) :
    readDescriptor sel vec ext s =
      .ok (BitVec.ofNat 64 (s.valueAt false (s.tableBase sel + BitVec.ofNat 32 (tableOffset sel)) 8), s) := by
  have hvalid : (!sel.getLsbD 2 || s.ldtr.valid) = true := by
    cases ht : sel.getLsbD 2
    · rfl
    · exact hv ht
  simp only [readDescriptor, bind_run, get_run, hvalid, decide_eq_true hl, check_true, sysRead, linRead_run hw hb, pure_run]

end

/-- Settles O46: each check stops with the error code of the selector, and the eight bytes are a system read. -/
theorem descriptorLookup : Obligations.DescriptorLookup := by
  unfold Obligations.DescriptorLookup
  rintro s sel vec ext tb tl e hw he rfl rfl
  obtain rfl : e = selError sel ext := by cases ext <;> exact he
  exact ⟨readDescriptor_invalidLdt, readDescriptor_beyondLimit, fun hl hv hb => readDescriptor_run hw hv hl hb⟩

end Sys2Proof.Machine
end

section
/-! PROOF. Page walks (20_memory R130 to R134): what a walk over two populated entries answers, and what it marks with
PAGING_SETS_AD. -/

namespace Sys2Proof.Machine

/-! ### The answer of a walk (20_memory R130, R132, R133) -/

theorem pageFaultCode_eq (present : Bool) (acc : Access) (user : Bool) :
    pageFaultCode present acc user =
      ((if acc = .write then 2 else 0) ||| (if user then 4 else 0)) ||| (if present then 1 else 0) := by
  cases present <;> cases acc <;> cases user <;> rfl

/-- A level-3 access needs the user bit in both entries; a write needs the write bit in both, at levels 0 to 2 only with
SUPERVISOR_WRITE_PROTECT (20_memory R133). -/
theorem permitted_iff (wp : Bool) (pde pte : Word) (acc : Access) (user : Bool) :
    permitted wp pde pte acc user = true ↔ (user = true → pde.getLsbD 2 = true ∧ pte.getLsbD 2 = true) ∧
      (acc = .write → user = true ∨ wp = true → pde.getLsbD 1 = true ∧ pte.getLsbD 1 = true) := by
  cases user
  · cases wp <;> simp [permitted, or_iff_not_imp_left]
  · simp [permitted, or_iff_not_imp_left]

theorem translate_unpaged {s : State} (acc : Access) (user : Bool) (lin : Word) (hg : s.paging = false) :
    translate acc user lin s = .ok (lin, s) := by
  simp [translate, bind_run, hg]

/-- Where a walk faults, the fault has the code of the entry that refuses and the address in CR2 (20_memory R132). -/
theorem translate_pageFault {s : State} {acc : Access} {user : Bool} {lin : Word} {e : Half}
    (hp : s.phys acc user lin = none) (hf : s.walkFault acc user lin = some e) :
    translate acc user lin s = .error (.raise ⟨14, some e, some lin⟩) := by
  rw [translate_blocked hp, State.walkStop, hf]

section
variable {s : State} {acc : Access} {user : Bool} {lin pde pte : Word} (hg : s.paging = true)
  (hd : s.entry ((s.cr3 &&& 0xFFFFF000#32) + (lin >>> 22) * 4) = some pde)
include hg hd

theorem phys_of_pde_absent (h : pde.getLsbD 0 = false) : s.phys acc user lin = none := by
  simp only [State.phys, hg, hd, h, if_true, Option.bind_some, Bool.false_eq_true, if_false]

theorem walkFault_of_pde_absent (h : pde.getLsbD 0 = false) :
    s.walkFault acc user lin = some (pageFaultCode false acc user) := by
  simp only [State.walkFault, hg, hd, h, if_true, Option.bind_some, Bool.false_eq_true, if_false]

variable (ht : s.entry ((pde &&& 0xFFFFF000#32) + ((lin >>> 12) &&& 0x3FF) * 4) = some pte)
include ht

/-- The whole answer of a walk over two populated entries (20_memory R130). -/
theorem phys_of_entries (hpde : pde.getLsbD 0 = true) :
    s.phys acc user lin =
      if pte.getLsbD 0 && permitted s.params.supervisorWriteProtect pde pte acc user then
        some ((pte &&& 0xFFFFF000) ||| (lin &&& 0xFFF))
      else none := by
  simp only [State.phys, hg, hd, hpde, ht, if_true, Option.bind_some]

theorem walkFault_of_entries (hpde : pde.getLsbD 0 = true) :
    s.walkFault acc user lin =
      if !pte.getLsbD 0 then some (pageFaultCode false acc user)
      else if permitted s.params.supervisorWriteProtect pde pte acc user then none
      else some (pageFaultCode true acc user) := by
  simp only [State.walkFault, hg, hd, hpde, ht, if_true, Option.bind_some]

/-- A walk over two populated entries that allows the access found both present and permitting it. -/
theorem phys_some_of_entries {p : Word} (hp : s.phys acc user lin = some p) :
    pde.getLsbD 0 = true ∧ pte.getLsbD 0 = true ∧
      permitted s.params.supervisorWriteProtect pde pte acc user = true ∧
      p = (pte &&& 0xFFFFF000) ||| (lin &&& 0xFFF) := by
  cases hpde : pde.getLsbD 0 with
  | false => rw [phys_of_pde_absent hg hd hpde] at hp; cases hp
  | true =>
    rw [phys_of_entries hg hd ht hpde] at hp
    split at hp
    · next h =>
      obtain ⟨hpte, hperm⟩ := Bool.and_eq_true_iff.1 h
      exact ⟨rfl, hpte, hperm, (Option.some.inj hp).symm⟩
    · cases hp

end

/-- Settles O43: with paging off nothing is walked; else the directory entry, the table entry and the permission refuse in
this order, or the address is the frame and offset. -/
theorem pageTranslation : Obligations.PageTranslation := by
  unfold Obligations.PageTranslation
  refine fun s acc user lin => ⟨translate_unpaged acc user lin, ?_⟩
  rintro pdeAt pteAt pde pte e hg hw he rfl hd
  replace hd : s.entry ((s.cr3 &&& 0xFFFFF000#32) + (lin >>> 22) * 4) = some pde := hd
  have hcode : ∀ present, pageFaultCode present acc user = e ||| (if present then 1 else 0) := fun present => by
    rw [he, pageFaultCode_eq]
  have habsent : pageFaultCode false acc user = e := (hcode false).trans BitVec.or_zero
  have hpresent : pageFaultCode true acc user = e ||| 1 := hcode true
  refine ⟨fun hpde => ?_, ?_⟩
  · rw [translate_pageFault (phys_of_pde_absent hg hd hpde) (walkFault_of_pde_absent hg hd hpde), habsent]
  · rintro hpde rfl ht allowed hallowed
    replace ht : s.entry ((pde &&& 0xFFFFF000#32) + ((lin >>> 12) &&& 0x3FF) * 4) = some pte := ht
    rw [← permitted_iff s.params.supervisorWriteProtect] at hallowed
    have hphys := phys_of_entries (acc := acc) (user := user) hg hd ht hpde
    have hfault := walkFault_of_entries (acc := acc) (user := user) hg hd ht hpde
    refine ⟨fun hpte => ?_, fun hpte hno => ?_, fun hpte hyes => ?_⟩
    · exact translate_pageFault (by rw [hphys, hpte]; rfl) (by rw [hfault, hpte, habsent]; rfl)
    · rw [hallowed, Bool.not_eq_true] at hno
      exact translate_pageFault (by rw [hphys, hpte, hno]; rfl) (by rw [hfault, hpte, hno, hpresent]; rfl)
    · exact translate_run hw (by rw [hphys, hpte, hallowed.1 hyes]; rfl)

/-! ### What a walk marks (20_memory R134) -/

/-- Storing an entry whose marks are set already would change nothing. -/
theorem or_twoPow_of_getLsbD {w k : Nat} {x : BitVec w} (h : x.getLsbD k = true) : x ||| BitVec.twoPow w k = x := by
  ext i hi
  simp only [BitVec.getElem_or, BitVec.getElem_twoPow, Bool.or_eq_left_iff_imp, decide_eq_true_eq]
  rintro rfl
  rwa [BitVec.getLsbD_eq_getElem hi] at h

/-- From one state to the other the page-table entry at an address becomes a value, and nothing else changes. -/
structure EntrySet (e v : Word) (s t : State) : Prop where
  rest : { t with mem := s.mem } = s
  wf : Memory.wf t.mem = true
  entry : t.entry e = some v
  others : ∀ a, a ∉ (addrs e 4).map BitVec.toNat → Memory.read t.mem a = Memory.read s.mem a

theorem State.entry_some_inRam {s : State} {e v : Word} (h : s.entry e = some v) : s.inRam (addrs e 4) = true := by
  simp only [State.entry] at h
  split at h
  · assumption
  · cases h

/-- An entry is read from its own four bytes. -/
theorem State.entry_congr {s t : State} {e : Word} (hp : t.params = s.params)
    (hm : ∀ a ∈ addrs e 4, Memory.read t.mem a.toNat = Memory.read s.mem a.toNat) : t.entry e = s.entry e := by
  have hram : t.inRam (addrs e 4) = s.inRam (addrs e 4) := by rw [State.inRam, State.inRam, hp]
  have hnum : t.numberOf (addrs e 4) = s.numberOf (addrs e 4) := congrArg leNat (List.map_congr_left hm)
  rw [State.entry, State.entry, hram, hnum]

theorem State.entry_storeBytes {s : State} {e : Word} (v : Word) (hm : Memory.wf s.mem = true)
    (hr : s.inRam (addrs e 4) = true) :
    ({ s with mem := storeBytes (addrs e 4) (leBytes 4 v.toNat) s.mem } : State).entry e = some v := by
  have hv := v.isLt
  have hread := map_read_storeBytes hm (addrs_nodup e (n := 4) (by decide)) (bs := leBytes 4 v.toNat) (by simp)
  have hram : ({ s with mem := storeBytes (addrs e 4) (leBytes 4 v.toNat) s.mem } : State).inRam (addrs e 4) = true := hr
  rw [State.entry, if_pos hram, State.numberOf, hread, leNat_leBytes, Nat.mod_eq_of_lt (by exact hv), BitVec.ofNat_toNat,
    BitVec.setWidth_eq]

/-- Writing an entry back sets it, where it is skipped because it holds the value already too. -/
theorem setEntry_run {s : State} {done : Bool} {e v old : Word} (hm : Memory.wf s.mem = true)
    (he : s.entry e = some old) (hdone : done = true → v = old) :
    ∃ t, setEntry done e v s = .ok ((), t) ∧ EntrySet e v s t := by
  cases done with
  | true => exact ⟨s, rfl, rfl, hm, hdone rfl ▸ he, fun _ _ => rfl⟩
  | false =>
    have hr := State.entry_some_inRam he
    refine ⟨_, physWrites_run (leBytes 4 v.toNat) hr, rfl, wf_storeBytes _ _ hm, State.entry_storeBytes v hm hr, ?_⟩
    exact fun a ha => read_storeBytes_of_ne _ _ fun x hx h => ha (List.mem_map.2 ⟨x, hx, h.symm⟩)

/-- Two entries at different multiples of four share no byte. -/
theorem addrs_four_disjoint {a b : Word} (ha : a.toNat % 4 = 0) (hb : b.toNat % 4 = 0) (hab : a ≠ b) :
    ∀ x ∈ addrs a 4, x.toNat ∉ (addrs b 4).map BitVec.toNat := by
  intro x hx h
  obtain ⟨y, hy, hxy⟩ := List.mem_map.1 h
  obtain rfl := BitVec.eq_of_toNat_eq hxy
  obtain ⟨i, hi, rfl⟩ := mem_addrs.1 hx
  obtain ⟨j, hj, hij⟩ := mem_addrs.1 hy
  refine hab (BitVec.eq_of_toNat_eq ?_)
  have hij' := congrArg BitVec.toNat hij
  simp only [BitVec.toNat_add, BitVec.toNat_ofNat] at hij'
  omega

theorem entryAddress_aligned (base index : Word) : ((base &&& 0xFFFFF000#32) + index * 4).toNat % 4 = 0 := by
  have hbase : (base.toNat &&& 4294963200) % 4 = 0 := by
    rw [Nat.and_mod_two_pow (n := 2)]
    exact Nat.and_zero _
  simp only [BitVec.ofNat_eq_ofNat, BitVec.toNat_add, BitVec.toNat_mul, BitVec.toNat_and, BitVec.toNat_ofNat,
    Nat.reducePow, Nat.reduceMod]
  omega

section
variable {s t u : State} {d e v w : Word}

theorem EntrySet.params (h : EntrySet e v s t) : t.params = s.params :=
  have hrest := congrArg State.params h.rest
  hrest

/-- Setting one entry leaves every other. -/
theorem EntrySet.entry_of_ne (h : EntrySet e v s t) (hd : d.toNat % 4 = 0) (he : e.toNat % 4 = 0) (hne : d ≠ e) :
    t.entry d = s.entry d :=
  State.entry_congr h.params fun a ha => h.others _ (addrs_four_disjoint hd he hne a ha)

/-- Setting two entries one after the other changes nothing but these. -/
theorem EntrySet.rest_trans (h : EntrySet d v s t) (k : EntrySet e w t u) : { u with mem := s.mem } = s := by
  have hu : { u with mem := s.mem } = ({ ({ u with mem := t.mem } : State) with mem := s.mem } : State) := rfl
  rw [hu, k.rest, h.rest]

theorem EntrySet.others_trans (h : EntrySet d v s t) (k : EntrySet e w t u) {a : Nat}
    (ha : a ∉ (addrs d 4 ++ addrs e 4).map BitVec.toNat) : Memory.read u.mem a = Memory.read s.mem a := by
  rw [List.map_append, List.mem_append, not_or] at ha
  rw [k.others a ha.2, h.others a ha.1]

end

/-- A walk that allows the access comes to its marks (20_memory R130). -/
theorem translate_marks {s : State} {acc : Access} {user : Bool} {lin pdeAt pteAt pde pte : Word} (hg : s.paging = true)
    (hpdeAt : pdeAt = (s.cr3 &&& 0xFFFFF000#32) + (lin >>> 22) * 4) (hd : s.entry pdeAt = some pde)
    (hpteAt : pteAt = (pde &&& 0xFFFFF000#32) + ((lin >>> 12) &&& 0x3FF) * 4) (ht : s.entry pteAt = some pte)
    (hpde : pde.getLsbD 0 = true) (hpte : pte.getLsbD 0 = true)
    (hperm : permitted s.params.supervisorWriteProtect pde pte acc user = true) :
    translate acc user lin s =
      (markAccessed pdeAt pde pteAt pte acc >>= fun _ => pure ((pte &&& 0xFFFFF000) ||| (lin &&& 0xFFF))) s := by
  obtain ⟨k1, e1, rfl⟩ := State.entry_some hd
  obtain ⟨k2, e2, rfl⟩ := State.entry_some ht
  subst hpdeAt hpteAt
  simp only [translate, bind_run, get_run, hg, if_true, e1, hpde, check_true, e2, hpte, hperm]

/-- The marks are two entries written back one after the other (20_memory R134). -/
theorem markAccessed_run {s : State} {pdeAt pteAt pde pte : Word} (acc : Access) (had : s.params.pagingSetsAD = true)
    (hm : Memory.wf s.mem = true) (hd : s.entry pdeAt = some pde) (ht : s.entry pteAt = some pte)
    (hda : pdeAt.toNat % 4 = 0) (hta : pteAt.toNat % 4 = 0) (hne : pdeAt ≠ pteAt) :
    ∃ t u, markAccessed pdeAt pde pteAt pte acc s = .ok ((), u) ∧ EntrySet pdeAt (pde ||| 0x20) s t ∧
      EntrySet pteAt (pte ||| 0x20 ||| (if acc = .write then 0x40 else 0)) t u := by
  have haccessed : ∀ x : Word, x.getLsbD 5 = true → x ||| 0x20 = x := fun _ h => or_twoPow_of_getLsbD h
  obtain ⟨t, h1, hset⟩ := setEntry_run hm hd (haccessed pde)
  have hskip : (pte.getLsbD 5 && (acc != .write || pte.getLsbD 6)) = true →
      pte ||| 0x20 ||| (if acc = .write then 0x40 else 0) = pte := fun h => by
    obtain ⟨h5, hdirty⟩ := Bool.and_eq_true_iff.1 h
    rw [haccessed pte h5]
    split
    · next hacc =>
      subst hacc
      exact or_twoPow_of_getLsbD hdirty
    · exact BitVec.or_zero
  obtain ⟨u, h2, hset'⟩ := setEntry_run hset.wf ((hset.entry_of_ne hta hda hne.symm).trans ht) hskip
  refine ⟨t, u, ?_, hset, hset'⟩
  simp only [markAccessed, bind_run, get_run, had, if_true, h1, h2]

/-- Settles O44: the two entries are four bytes each and share none, so each is written back without the other, and a write
that is skipped would change nothing. -/
theorem pageWalksMarkEntries : Obligations.PageWalksMarkEntries := by
  unfold Obligations.PageWalksMarkEntries
  intro s acc user lin p pdeAt pteAt pde pte hm had hg hp hpdeAt hd hpteAt ht hne
  have hda : pdeAt.toNat % 4 = 0 := hpdeAt ▸ entryAddress_aligned s.cr3 _
  have hta : pteAt.toNat % 4 = 0 := hpteAt ▸ entryAddress_aligned pde _
  obtain ⟨hpde, hpte, hperm, rfl⟩ := phys_some_of_entries hg (hpdeAt ▸ hd) (hpteAt ▸ ht) hp
  obtain ⟨t, u, hmark, hset, hset'⟩ := markAccessed_run acc had hm hd ht hda hta hne
  refine ⟨u, ?_, hset.rest_trans hset', ?_, hset'.entry, fun a ha => hset.others_trans hset' ha⟩
  · rw [translate_marks hg hpdeAt hd hpteAt ht hpde hpte hperm, bind_run, hmark]
    rfl
  · rw [hset'.entry_of_ne hda hta hne, hset.entry]

end Sys2Proof.Machine
end

section
/-! PROOF. Memory operands that stop an instruction (20_memory R100 to R103, R133, R135; 60_exceptions R496): what stops a read
or a write of an operand, and the step that MOV and ADD take then. -/

namespace Sys2Proof.Machine

/-! ### Linear accesses that stop (20_memory R82, R135; log 18) -/

section
variable {s : State} {acc : Access} {user : Bool} {lin : Word} {n : Nat}

/-- The first address whose walk does not allow the access stops it: the walks before it change nothing. -/
theorem translates_blocked (hw : s.plainWalks = true) {k : Nat} (hk : k < n)
    (hbefore : ∀ j < k, (s.phys acc user (lin + BitVec.ofNat 32 j)).isSome = true)
    (hp : s.phys acc user (lin + BitVec.ofNat 32 k) = none) :
    translates acc user (addrs lin n) s = .error (s.walkStop acc user (lin + BitVec.ofNat 32 k)) := by
  induction n generalizing lin k with
  | zero => cases hk
  | succ n ih =>
    simp only [addrs, translates, bind_run]
    cases k with
    | zero =>
      rw [BitVec.add_zero] at hp ⊢
      rw [translate_blocked hp]
    | succ k =>
      have h0 := hbefore 0 (Nat.succ_pos k)
      rw [BitVec.add_zero] at h0
      obtain ⟨p, hp0⟩ := Option.isSome_iff_exists.1 h0
      rw [← add_one_add_ofNat] at hp ⊢
      rw [translate_run hw hp0]
      simp only [ih (Nat.lt_of_succ_lt_succ hk)
        (fun j hj => add_one_add_ofNat lin j ▸ hbefore (j + 1) (Nat.succ_lt_succ hj)) hp]

theorem physAll_length {as ps : List Word} (h : s.physAll acc user as = some ps) : ps.length = as.length := by
  induction as generalizing ps with
  | nil => cases h; rfl
  | cons a as ih =>
    simp only [State.physAll] at h
    obtain ⟨p, -, h⟩ := Option.bind_eq_some_iff.1 h
    obtain ⟨qs, h2, rfl⟩ := Option.map_eq_some_iff.1 h
    simp [ih h2]

/-- Both kinds of access translate every byte first, so a stop there is their stop. -/
theorem linRead_error {e : Stop} (h : translates acc user (addrs lin n) s = .error e) :
    linRead acc user lin n s = .error e := by
  simp only [linRead, bind_run, h]

theorem linWrite_error {e : Stop} (v : Nat) (h : translates .write user (addrs lin n) s = .error e) :
    linWrite user lin n v s = .error e := by
  simp only [linWrite, bind_run, h]

theorem linRead_outOfRange (hw : s.plainWalks = true) {ps : List Word} (h : s.physAll acc user (addrs lin n) = some ps)
    (hr : s.inRam ps = false) : linRead acc user lin n s = .error (.fatal .physicalOutOfRange) := by
  simp only [linRead, bind_run, translates_run hw h, physReads_outOfRange hr]

theorem linWrite_outOfRange (hw : s.plainWalks = true) (v : Nat) {ps : List Word}
    (h : s.physAll .write user (addrs lin n) = some ps) (hr : s.inRam ps = false) :
    linWrite user lin n v s = .error (.fatal .physicalOutOfRange) := by
  have hl : ps.length = (leBytes n v).length := by simp [physAll_length h]
  simp only [linWrite, bind_run, translates_run hw h, physWrites_outOfRange hl hr]

end

/-! ### Accesses through a segment that stop -/

section
variable {s : State} {g : SReg} {off : Word} {n : Nat}

theorem State.blockedAt_iff {acc : Access} {k : Nat} :
    s.blockedAt acc g off n k = true ↔
      k < n ∧ (∀ j < k, (s.phys acc s.user (s.linear g off + BitVec.ofNat 32 j)).isSome = true) ∧
        s.phys acc s.user (s.linear g off + BitVec.ofNat 32 k) = none := by
  simp [State.blockedAt, and_assoc]

theorem State.leavesMemory_some {acc : Access} (h : s.leavesMemory acc g off n = true) :
    ∃ ps, s.physAll acc s.user (addrs (s.linear g off) n) = some ps ∧ s.inRam ps = false := by
  simp only [State.leavesMemory] at h
  split at h
  · next ps hps => exact ⟨ps, hps, by simpa using h⟩
  · cases h

/-- Within bounds a read passes where the segment may be read (20_memory R103). -/
theorem checkSegment_read_inBounds (hin : (s.seg g).inBounds off n = true) :
    checkSegment g off n .read s =
      if s.mayRead g then .ok ((), s) else .error (if (s.seg g).valid then protection 0 else segmentFault g) := by
  rw [checkSegment_inBounds _ hin, checkRights_read, State.mayRead]
  cases s.pe <;> rfl

/-- Within bounds a write passes where the segment may be written (20_memory R103). -/
theorem checkSegment_write_inBounds (hin : (s.seg g).inBounds off n = true) :
    checkSegment g off n .write s = if s.mayWrite g then .ok ((), s) else .error (segmentFault g) := by
  rw [checkSegment_inBounds _ hin, checkRights_write, State.mayWrite]
  cases s.pe <;> rfl

theorem segRead_error {e : Stop} (h : checkSegment g off n .read s = .error e) : segRead g off n s = .error e := by
  simp only [segRead, bind_run, h]

theorem segWrite_error {e : Stop} (v : Nat) (h : checkSegment g off n .write s = .error e) :
    segWrite g off n v s = .error e := by
  simp only [segWrite, bind_run, h]

theorem segRead_allowed (hin : (s.seg g).inBounds off n = true) (hr : s.mayRead g = true) :
    segRead g off n s = linRead .read s.user (s.linear g off) n s := by
  simp only [segRead, bind_run, checkSegment_read_inBounds hin, hr, if_true, get_run, State.linear]

theorem segWrite_allowed (v : Nat) (hin : (s.seg g).inBounds off n = true) (hr : s.mayWrite g = true) :
    segWrite g off n v s = linWrite s.user (s.linear g off) n v s := by
  simp only [segWrite, bind_run, checkSegment_write_inBounds hin, hr, if_true, get_run, State.linear]

end

theorem RunsAlike.linWrite (user : Bool) (lin : Word) (n v : Nat) : RunsAlike (linWrite user lin n v) :=
  .bind (.translates _ _ _) fun _ => .physWrites _ _

theorem RunsAlike.segWrite (g : SReg) (off : Word) (n v : Nat) : RunsAlike (segWrite g off n v) :=
  .bind (.checkSegment _ _ _ _) fun _ => .getBind (fun s t h => by rw [h.user, h.seg]) fun _ => .linWrite _ _ _ _

/-- What stops a computation that reads only what memory accesses read stops it in every state that agrees. -/
theorem RunsAlike.error {α : Type} {x : Exec α} (hx : RunsAlike x) {s t : State} (h : Agree s t) {e : Stop}
    (hs : x s = .error e) : x t = .error e := by
  have hst := hx s t h
  rw [hs] at hst
  generalize x t = y at hst
  cases hst
  rfl

/-! ### The step of an instruction that stops (60_exceptions R496) -/

theorem seqInstr_error {s : State} {body : Exec Unit} {e : Stop} (hw : s.plainWalks = true) (h : body s = .error e) :
    seqInstr body s = settle s s.eip (.error e) := by
  simp only [seqInstr, runInstr, bind_run, touchFetch_run hw, h]

theorem settle_segmentFault (s : State) (g : SReg) :
    settle s s.eip (.error (segmentFault g)) = s.faulted (if g = .ss then 12 else 13) (some 0) := by
  unfold segmentFault
  split <;> rfl

theorem settle_walkStop (s : State) (acc : Access) (lin : Word) :
    settle s s.eip (.error (s.walkStop acc s.user lin)) = s.blockedStep acc lin := by
  unfold State.walkStop State.blockedStep
  cases s.walkFault acc s.user lin <;> rfl

section
variable {s : State} {w : Size} {r : Reg} {m : MemOp} {g : SReg} {off : Word} {e : Stop} (hloc : (g, off) = memLoc s m)
include hloc

theorem moveToReg_error (h : segRead g off w.bytes s = .error e) : moveToReg w r (.mem m) s = .error e := by
  simp only [moveToReg, readRM, readLoc, locate, ← hloc, bind_run, get_run, h]

theorem moveToRM_error (h : ∀ v, segWrite g off w.bytes v s = .error e) : moveToRM w (.mem m) r s = .error e := by
  simp only [moveToRM, writeRM, writeLoc, locate, ← hloc, bind_run, readReg_run, get_run, h]

theorem rmFromReg_read_error (op : BinOp) (h : segRead g off w.bytes s = .error e) :
    rmFromReg op w (.mem m) r s = .error e := by
  simp only [rmFromReg, readLoc, locate, ← hloc, bind_run, get_run, h]

/-- The flags that an operation sets before the write of its result do not matter for what stops that write. -/
theorem rmFromReg_write_error {op : BinOp} {f : Effect} (ho : Computes op f) (ha : EffAgree f) (hw : s.plainWalks = true)
    (hr : s.readable g off w.bytes = true) (h : ∀ v, segWrite g off w.bytes v s = .error e) :
    rmFromReg op w (.mem m) r s = .error e := by
  simp only [rmFromReg, readLoc, locate, ← hloc, bind_run, get_run, segRead_run hw hr, pure_run, readReg_run, ho, writeLoc,
    (RunsAlike.segWrite _ _ _ _).error (ha _ _ _ _) (h _)]

end

/-! ### The three instructions, as byte form and in the operand size -/

/-- MOV of a memory operand to a register. -/
def loadInstr (w : Size) (r : Reg) (m : MemOp) : Instr :=
  if w = .b8 then .movR8Rm8 r (.mem m) else .movRvRmv r (.mem m)

/-- MOV of a register to a memory operand. -/
def storeInstr (w : Size) (r : Reg) (m : MemOp) : Instr :=
  if w = .b8 then .movRm8R8 (.mem m) r else .movRmvRv (.mem m) r

/-- ADD of a register to a memory operand. -/
def addInstr (w : Size) (r : Reg) (m : MemOp) : Instr :=
  if w = .b8 then .addRm8R8 (.mem m) r else .addRmvRv (.mem m) r

section
variable {s : State} {w : Size} {r : Reg} {m : MemOp} (hsize : w = .b8 ∨ w = s.ctx.osz)
include hsize

theorem exec_loadInstr : exec (loadInstr w r m) s = seqInstr (moveToReg w r (.mem m)) s := by
  by_cases hb : w = .b8
  · subst hb; rfl
  · obtain rfl := hsize.resolve_left hb
    rw [loadInstr, if_neg hb]; rfl

theorem exec_storeInstr : exec (storeInstr w r m) s = seqInstr (moveToRM w (.mem m) r) s := by
  by_cases hb : w = .b8
  · subst hb; rfl
  · obtain rfl := hsize.resolve_left hb
    rw [storeInstr, if_neg hb]; rfl

theorem exec_addInstr : exec (addInstr w r m) s = seqInstr (rmFromReg addOp w (.mem m) r) s := by
  by_cases hb : w = .b8
  · subst hb; rfl
  · obtain rfl := hsize.resolve_left hb
    rw [addInstr, if_neg hb]; rfl

variable {g : SReg} {off : Word} {e : Stop} (hw : s.plainWalks = true) (hloc : (g, off) = memLoc s m)
include hw hloc

/-- Whatever stops the read of the operand is what the load and ADD stop with. -/
theorem exec_readError (h : segRead g off w.bytes s = .error e) :
    ∀ i ∈ [loadInstr w r m, addInstr w r m], exec i s = settle s s.eip (.error e) := by
  simp only [List.forall_mem_cons, exec_loadInstr hsize, exec_addInstr hsize]
  exact ⟨seqInstr_error hw (moveToReg_error hloc h), seqInstr_error hw (rmFromReg_read_error hloc addOp h), by simp⟩

/-- Whatever stops the write of the operand is what the store stops with, and ADD where the operand can be read. -/
theorem exec_writeError (h : ∀ v, segWrite g off w.bytes v s = .error e) :
    exec (storeInstr w r m) s = settle s s.eip (.error e) ∧
      (s.readable g off w.bytes = true → exec (addInstr w r m) s = settle s s.eip (.error e)) := by
  rw [exec_storeInstr hsize, exec_addInstr hsize]
  exact ⟨seqInstr_error hw (moveToRM_error hloc h),
    fun hr => seqInstr_error hw (rmFromReg_write_error hloc comp_add ea_add hw hr h)⟩

end

/-- Settles O40: what stops the read of an operand or its write is said above, in the order of the checks, and so is the step
that the three instructions then take. -/
theorem operandFaults : Obligations.OperandFaults := by
  unfold Obligations.OperandFaults
  rintro s w r m g off _ _ _ v hw hloc hsize rfl rfl rfl hv
  have hsegment : settle s s.eip (.error (segmentFault g)) = s.faulted v (some 0) := by
    rw [settle_segmentFault, hv]
  have hread : settle s s.eip (.error (if (s.seg g).valid then protection 0 else segmentFault g)) =
      s.faulted (if (s.seg g).valid then 13 else v) (some 0) := by
    split
    · rfl
    · exact hsegment
  refine ⟨fun hout => ?_, fun hin hno => ?_, fun hin hno => ?_, ?_, fun hin => ⟨fun hr hl => ?_, fun hr hl => ?_⟩⟩
  · have hreads := exec_readError (r := r) hsize hw hloc (segRead_error (checkSegment_outOfBounds .read hout))
    have hwrites := exec_writeError (r := r) hsize hw hloc fun v =>
      segWrite_error v (checkSegment_outOfBounds .write hout)
    rw [hsegment] at hreads hwrites
    simp only [List.forall_mem_cons] at hreads ⊢
    exact ⟨hreads.1, hwrites.1, hreads.2⟩
  · rw [← hread]
    exact exec_readError hsize hw hloc (segRead_error (by rw [checkSegment_read_inBounds hin, hno]; rfl))
  · rw [← hsegment]
    exact exec_writeError hsize hw hloc fun v =>
      segWrite_error v (by rw [checkSegment_write_inBounds hin, hno]; rfl)
  · rintro k lin hin rfl
    refine ⟨fun hr hb => ?_, fun hr hb => ?_⟩
    · obtain ⟨hk, hbefore, hp⟩ := State.blockedAt_iff.1 hb
      rw [← settle_walkStop]
      exact exec_readError hsize hw hloc
        ((segRead_allowed hin hr).trans (linRead_error (translates_blocked hw hk hbefore hp)))
    · obtain ⟨hk, hbefore, hp⟩ := State.blockedAt_iff.1 hb
      rw [← settle_walkStop]
      exact exec_writeError hsize hw hloc fun v =>
        (segWrite_allowed v hin hr).trans (linWrite_error v (translates_blocked hw hk hbefore hp))
  · obtain ⟨ps, hps, hram⟩ := State.leavesMemory_some hl
    exact exec_readError hsize hw hloc ((segRead_allowed hin hr).trans (linRead_outOfRange hw hps hram))
  · obtain ⟨ps, hps, hram⟩ := State.leavesMemory_some hl
    exact (exec_writeError hsize hw hloc fun v =>
      (segWrite_allowed v hin hr).trans (linWrite_outOfRange hw v hps hram)).1

end Sys2Proof.Machine
end

section
/-! PROOF. The fields of an instruction's bytes (30_encoding R171 to R175, R180): reading a field off the front of the bytes
succeeds exactly where the bytes begin with that field's encoding. -/

namespace Sys2Proof

/-! ### Register numbers -/

@[simp] theorem Reg.ofBits_bits (r : Reg) : Reg.ofBits r.bits = r := by cases r <;> rfl
@[simp] theorem Reg.bits_ofBits (b : BitVec 3) : (Reg.ofBits b).bits = b := by revert b; decide
@[simp] theorem Base16.ofBits_bits (r : Base16) : Base16.ofBits r.bits = r := by cases r <;> rfl
@[simp] theorem Base16.bits_ofBits (b : BitVec 3) : (Base16.ofBits b).bits = b := by revert b; decide

theorem Reg.bits_eq_iff {r : Reg} {b : BitVec 3} : r.bits = b ↔ r = Reg.ofBits b :=
  ⟨fun h => by rw [← h, Reg.ofBits_bits], fun h => by rw [h, Reg.bits_ofBits]⟩

theorem Base16.bits_eq_iff {r : Base16} {b : BitVec 3} : r.bits = b ↔ r = Base16.ofBits b :=
  ⟨fun h => by rw [← h, Base16.ofBits_bits], fun h => by rw [h, Base16.bits_ofBits]⟩

/-! ### The fields of a ModRM or SIB byte (30_encoding R171, R175) -/

section
variable (hi : BitVec 2) (mid lo : BitVec 3)

@[simp] theorem threeFields_hi : (threeFields hi mid lo).extractLsb' 6 2 = hi := by
  simp only [threeFields, -Nat.reduceAdd, BitVec.extractLsb'_append_eq_ite]
  simp

@[simp] theorem threeFields_mid : (threeFields hi mid lo).extractLsb' 3 3 = mid := by
  simp only [threeFields, -Nat.reduceAdd, BitVec.extractLsb'_append_eq_ite]
  simp

@[simp] theorem threeFields_lo : (threeFields hi mid lo).extractLsb' 0 3 = lo := by
  simp only [threeFields, -Nat.reduceAdd, BitVec.extractLsb'_append_eq_ite]
  simp

end

theorem threeFields_fields (b : Byte) :
    threeFields (b.extractLsb' 6 2) (b.extractLsb' 3 3) (b.extractLsb' 0 3) = b := by
  revert b; decide

/-! ### Little-endian fields (30_encoding R161, R180) -/

theorem halfBytes_half (b0 b1 : Byte) : halfBytes (half b0 b1) = [b0, b1] := by
  simp only [halfBytes, half, -Nat.reduceAdd, BitVec.extractLsb'_append_eq_ite]
  simp

theorem half_halfBytes (v : Half) : half (v.extractLsb' 0 8) (v.extractLsb' 8 8) = v := by
  simp only [half, BitVec.extractLsb'_append_extractLsb'_eq_extractLsb']
  exact BitVec.extractLsb'_eq_self

theorem wordBytes_word (b0 b1 b2 b3 : Byte) : wordBytes (word b0 b1 b2 b3) = [b0, b1, b2, b3] := by
  simp only [wordBytes, word, -Nat.reduceAdd, BitVec.extractLsb'_append_eq_ite]
  simp

theorem word_wordBytes (v : Word) :
    word (v.extractLsb' 0 8) (v.extractLsb' 8 8) (v.extractLsb' 16 8) (v.extractLsb' 24 8) = v := by
  simp only [word, BitVec.extractLsb'_append_extractLsb'_eq_extractLsb']
  exact BitVec.extractLsb'_eq_self

theorem take8_eq_some {bs r : List Byte} {v : Byte} : take8 bs = some (v, r) ↔ bs = v :: r := by
  cases bs <;> simp [take8]

theorem take16_eq_some {bs r : List Byte} {v : Half} : take16 bs = some (v, r) ↔ bs = halfBytes v ++ r := by
  constructor
  · intro h
    unfold take16 at h
    split at h
    · cases h; rw [halfBytes_half]; rfl
    · cases h
  · rintro rfl
    simp [halfBytes, take16, half_halfBytes]

theorem take32_eq_some {bs r : List Byte} {v : Word} : take32 bs = some (v, r) ↔ bs = wordBytes v ++ r := by
  constructor
  · intro h
    unfold take32 at h
    split at h
    · cases h; rw [wordBytes_word]; rfl
    · cases h
  · rintro rfl
    simp [wordBytes, take32, word_wordBytes]

/-- A 16-bit value, zero-extended, is a word below 2^16. -/
theorem setWidth_eq_iff_lt {v : Word} {h : Half} : h.setWidth 32 = v ↔ v.setWidth 16 = h ∧ v.toNat < 65536 := by
  have hlt := h.isLt
  simp only [← BitVec.toNat_inj, BitVec.toNat_setWidth]
  omega

theorem takeSized_eq_some {sz : Size} {bs r : List Byte} {v : Word} :
    takeSized sz bs = some (v, r) ↔ bs = sizedBytes sz v ++ r ∧ (sz = .b32 ∨ v.toNat < 65536) := by
  cases sz with
  | b32 => simp [takeSized, sizedBytes, take32_eq_some]
  | b8 | b16 =>
    simp only [takeSized, sizedBytes, reduceCtorEq, false_or]
    constructor
    · intro h
      split at h
      · next w r' hw =>
        cases h
        obtain ⟨hv, hlt⟩ := setWidth_eq_iff_lt.1 (rfl : w.setWidth 32 = _)
        exact ⟨by rw [hv]; exact take16_eq_some.1 hw, hlt⟩
      · cases h
    · rintro ⟨hbs, hlt⟩
      rw [take16_eq_some.2 hbs]
      simp only [setWidth_eq_iff_lt.2 ⟨rfl, hlt⟩]

theorem takeFar_eq_some {sz : Size} {bs r : List Byte} {off : Word} {sel : Half} :
    takeFar sz bs = some ((off, sel), r) ↔
      bs = sizedBytes sz off ++ halfBytes sel ++ r ∧ (sz = .b32 ∨ off.toNat < 65536) := by
  unfold takeFar
  constructor
  · intro h
    split at h
    · cases h
    · next hoff =>
      split at h
      · cases h
      · next hsel =>
        cases h
        obtain ⟨hbs, hlt⟩ := takeSized_eq_some.1 hoff
        rw [hbs, take16_eq_some.1 hsel, List.append_assoc]
        exact ⟨rfl, hlt⟩
  · rintro ⟨rfl, hlt⟩
    rw [takeSized_eq_some.2 ⟨List.append_assoc .., hlt⟩]
    simp only [take16_eq_some.2 rfl]

/-! ### Displacements and operands (30_encoding R171 to R175) -/

theorem takeDisp16_encode (d : Disp16) (r : List Byte) : takeDisp16 d.encode.1 (d.encode.2 ++ r) = some (d, r) := by
  cases d with
  | none => rfl
  | d8 v => rfl
  | d16 v => simp [takeDisp16, Disp16.encode, take16_eq_some.2 rfl]

theorem takeDisp32_encode (d : Disp32) (r : List Byte) : takeDisp32 d.encode.1 (d.encode.2 ++ r) = some (d, r) := by
  cases d with
  | none => rfl
  | d8 v => rfl
  | d32 v => simp [takeDisp32, Disp32.encode, take32_eq_some.2 rfl]

theorem eq_two_of_ne {md : BitVec 2} (h0 : md ≠ 0) (h1 : md ≠ 1) (h3 : md ≠ 3) : md = 2 := by
  revert md; decide

theorem takeDisp16_some {md : BitVec 2} {bs r : List Byte} {d : Disp16} (hmd : md ≠ 3)
    (h : takeDisp16 md bs = some (d, r)) : d.encode.1 = md ∧ bs = d.encode.2 ++ r := by
  unfold takeDisp16 at h
  split at h
  · next h0 => cases h; exact ⟨h0.symm, rfl⟩
  · split at h
    · next h1 =>
      split at h
      · next hv => cases h; exact ⟨h1.symm, take8_eq_some.1 hv⟩
      · cases h
    · next h0 h1 =>
      split at h
      · next hv => cases h; exact ⟨(eq_two_of_ne h0 h1 hmd).symm, take16_eq_some.1 hv⟩
      · cases h

theorem takeDisp32_some {md : BitVec 2} {bs r : List Byte} {d : Disp32} (hmd : md ≠ 3)
    (h : takeDisp32 md bs = some (d, r)) : d.encode.1 = md ∧ bs = d.encode.2 ++ r := by
  unfold takeDisp32 at h
  split at h
  · next h0 => cases h; exact ⟨h0.symm, rfl⟩
  · split at h
    · next h1 =>
      split at h
      · next hv => cases h; exact ⟨h1.symm, take8_eq_some.1 hv⟩
      · cases h
    · next h0 h1 =>
      split at h
      · next hv => cases h; exact ⟨(eq_two_of_ne h0 h1 hmd).symm, take32_eq_some.1 hv⟩
      · cases h

theorem Disp16.encode_md_ne (d : Disp16) : d.encode.1 ≠ 3 := by cases d <;> simp [encode]
theorem Disp32.encode_md_ne (d : Disp32) : d.encode.1 ≠ 3 := by cases d <;> simp [encode]

@[simp] theorem Disp16.encode_md_eq_zero (d : Disp16) : d.encode.1 = 0 ↔ d = .none := by
  cases d <;> simp [Disp16.encode]
@[simp] theorem Disp32.encode_md_eq_zero (d : Disp32) : d.encode.1 = 0 ↔ d = .none := by
  cases d <;> simp [Disp32.encode]

/-- mod 0 with rm 6 is no base BP without displacement but an absolute address (30_encoding R173). -/
theorem base16_fits_iff (b : Base16) (d : Disp16) :
    (b != .bp || d != .none) = true ↔ ¬(d.encode.1 = 0 ∧ b.bits = 6) := by
  rw [Base16.bits_eq_iff, Disp16.encode_md_eq_zero]
  simp [Base16.ofBits, imp_iff_not_or, or_comm]

/-- mod 0 with base number 5 is no base EBP without displacement but an absolute address (30_encoding R174, R175). -/
theorem base32_fits_iff (b : Reg) (d : Disp32) :
    (b != .ebp || d != .none) = true ↔ ¬(d.encode.1 = 0 ∧ b.bits = 5) := by
  rw [Reg.bits_eq_iff, Disp32.encode_md_eq_zero]
  simp [Reg.ofBits, imp_iff_not_or, or_comm]

/-- rm 4 is no base ESP but a SIB byte (30_encoding R174). -/
theorem baseEsp_fits_iff (b : Reg) : (b != .esp) = true ↔ b.bits ≠ 4 := by
  rw [Ne, Reg.bits_eq_iff]
  simp [Reg.ofBits]

/-- A memory operand that fits its address size is a ModRM byte, not with mod 3, and bytes that are read as it. -/
theorem MemOp.encode_taken {m : MemOp} {asz : Size} (h : m.fits asz = true) (g : BitVec 3) :
    ∃ md rm bs, m.encode g = threeFields md g rm :: bs ∧ md ≠ 3 ∧ ∀ r, takeMem asz md rm (bs ++ r) = some (m, r) := by
  cases m <;> simp only [MemOp.fits, Bool.and_eq_true, beq_iff_eq] at h
  case abs16 v =>
    subst h
    refine ⟨_, _, _, rfl, by decide, fun r => ?_⟩
    simp [takeMem, takeMem16, take16_eq_some.2 rfl]
  case ind16 b d =>
    obtain ⟨rfl, h⟩ := h
    refine ⟨_, _, _, rfl, d.encode_md_ne, fun r => ?_⟩
    simp only [takeMem, takeMem16, if_neg ((base16_fits_iff b d).1 h), takeDisp16_encode, Base16.ofBits_bits]
  case abs32 v =>
    subst h
    refine ⟨_, _, _, rfl, by decide, fun r => ?_⟩
    simp [takeMem, takeMem32, take32_eq_some.2 rfl]
  case ind32 b d =>
    obtain ⟨⟨rfl, hesp⟩, h⟩ := h
    refine ⟨_, _, _, rfl, d.encode_md_ne, fun r => ?_⟩
    simp only [takeMem, takeMem32, if_neg ((baseEsp_fits_iff b).1 hesp), if_neg ((base32_fits_iff b d).1 h),
      takeDisp32_encode, Reg.ofBits_bits]
  case sib sc ix b d =>
    obtain ⟨rfl, h⟩ := h
    refine ⟨_, _, _, rfl, d.encode_md_ne, fun r => ?_⟩
    simp only [takeMem, takeMem32, if_true, takeSib, List.cons_append, threeFields_hi, threeFields_mid, threeFields_lo,
      if_neg ((base32_fits_iff b d).1 h), takeDisp32_encode, Reg.ofBits_bits]
  case sibAbs sc ix v =>
    subst h
    refine ⟨_, _, _, rfl, by decide, fun r => ?_⟩
    simp [takeMem, takeMem32, takeSib, take32_eq_some.2 rfl]

theorem takeMem16_some {md : BitVec 2} {rm : BitVec 3} {bs r : List Byte} {m : MemOp} (hmd : md ≠ 3)
    (h : takeMem16 md rm bs = some (m, r)) (g : BitVec 3) :
    threeFields md g rm :: bs = m.encode g ++ r ∧ m.fits .b16 = true := by
  unfold takeMem16 at h
  split at h
  · next habs =>
    obtain ⟨rfl, rfl⟩ := habs
    split at h
    · next hv => cases h; rw [take16_eq_some.1 hv]; exact ⟨rfl, rfl⟩
    · cases h
  · next habs =>
    split at h
    · next d _ hd =>
      cases h
      obtain ⟨rfl, hbs⟩ := takeDisp16_some hmd hd
      rw [hbs, MemOp.encode, Base16.bits_ofBits]
      refine ⟨rfl, (base16_fits_iff _ d).2 ?_⟩
      rwa [Base16.bits_ofBits]
    · cases h

theorem takeSib_some {md : BitVec 2} {bs r : List Byte} {m : MemOp} (hmd : md ≠ 3)
    (h : takeSib md bs = some (m, r)) (g : BitVec 3) :
    threeFields md g 4 :: bs = m.encode g ++ r ∧ m.fits .b32 = true := by
  unfold takeSib at h
  split at h
  · cases h
  · next b r0 =>
    rw [← threeFields_fields b]
    dsimp only at h
    split at h
    · next habs =>
      obtain ⟨rfl, hbase⟩ := habs
      split at h
      · next hv =>
        cases h
        rw [take32_eq_some.1 hv, MemOp.encode, Reg.bits_ofBits, hbase]
        exact ⟨rfl, rfl⟩
      · cases h
    · next habs =>
      split at h
      · next d _ hd =>
        cases h
        obtain ⟨rfl, hbs⟩ := takeDisp32_some hmd hd
        rw [hbs, MemOp.encode, Reg.bits_ofBits, Reg.bits_ofBits]
        refine ⟨rfl, (base32_fits_iff _ d).2 ?_⟩
        rwa [Reg.bits_ofBits]
      · cases h

theorem takeMem32_some {md : BitVec 2} {rm : BitVec 3} {bs r : List Byte} {m : MemOp} (hmd : md ≠ 3)
    (h : takeMem32 md rm bs = some (m, r)) (g : BitVec 3) :
    threeFields md g rm :: bs = m.encode g ++ r ∧ m.fits .b32 = true := by
  unfold takeMem32 at h
  split at h
  · next hsib => subst hsib; exact takeSib_some hmd h g
  · next hsib =>
    split at h
    · next habs =>
      obtain ⟨rfl, rfl⟩ := habs
      split at h
      · next hv => cases h; rw [take32_eq_some.1 hv]; exact ⟨rfl, rfl⟩
      · cases h
    · next habs =>
      split at h
      · next d _ hd =>
        cases h
        obtain ⟨rfl, hbs⟩ := takeDisp32_some hmd hd
        rw [hbs, MemOp.encode, Reg.bits_ofBits]
        have hesp := (baseEsp_fits_iff (Reg.ofBits rm)).2 (by rwa [Reg.bits_ofBits])
        have hebp := (base32_fits_iff (Reg.ofBits rm) d).2 (by rwa [Reg.bits_ofBits])
        exact ⟨rfl, Bool.and_eq_true_iff.2 ⟨hesp, hebp⟩⟩
      · cases h

/-- What is read as a memory operand is its encoding, and it fits the address size, 16 or 32 bits. -/
theorem takeMem_some {asz : Size} (hasz : asz = .b16 ∨ asz = .b32) {md : BitVec 2} {rm : BitVec 3} {bs r : List Byte}
    {m : MemOp} (hmd : md ≠ 3) (h : takeMem asz md rm bs = some (m, r)) (g : BitVec 3) :
    threeFields md g rm :: bs = m.encode g ++ r ∧ m.fits asz = true := by
  obtain rfl | rfl := hasz
  · exact takeMem16_some hmd h g
  · exact takeMem32_some hmd h g

/-- An r/m operand that fits is a ModRM byte, with mod 3 for a register only, and bytes that are read as it. -/
theorem RM.encode_taken {x : RM} {asz : Size} (h : x.fits asz = true) (g : BitVec 3) :
    ∃ md rm bs, x.encode g = threeFields md g rm :: bs ∧ (md ≠ 3 ↔ ∃ m, x = .mem m) ∧
      ∀ r, takeRM asz md rm (bs ++ r) = some (x, r) := by
  cases x with
  | reg q => exact ⟨_, _, _, rfl, by simp, fun r => by simp [takeRM]⟩
  | mem m =>
    obtain ⟨md, rm, bs, hbytes, hmd, htake⟩ := MemOp.encode_taken h g
    exact ⟨md, rm, bs, hbytes, by simpa using hmd, fun r => by simp only [takeRM, if_neg hmd, htake]⟩

theorem takeRM_some {asz : Size} (hasz : asz = .b16 ∨ asz = .b32) {md : BitVec 2} {rm : BitVec 3} {bs r : List Byte}
    {x : RM} (h : takeRM asz md rm bs = some (x, r)) (g : BitVec 3) :
    threeFields md g rm :: bs = x.encode g ++ r ∧ x.fits asz = true ∧ (md ≠ 3 → ∃ m, x = .mem m) := by
  unfold takeRM at h
  split at h
  · next hmd =>
    cases h
    subst hmd
    exact ⟨by rw [RM.encode, Reg.bits_ofBits]; rfl, rfl, fun h => absurd rfl h⟩
  · next hmd =>
    split at h
    · next hm =>
      cases h
      obtain ⟨hbs, hfits⟩ := takeMem_some hasz hmd hm g
      exact ⟨hbs, hfits, fun _ => ⟨_, rfl⟩⟩
    · cases h

end Sys2Proof
end

section
/-! PROOF. From a row to its bytes: the entry of the opcode maps at an instruction's opcode reads the instruction off its
operands (30_encoding R166, R170, R200 to R202). -/

namespace Sys2Proof

/-- A tail with its reg field as the bits the ModRM byte holds. -/
def Tail.raw (digit : BitVec 3) : Tail → Tail
  | .plain i => .plain i
  | .modrm f rm i => .modrm (.ignored (f.bits digit)) rm i
  | .fixedReg md f r => .fixedReg md (.ignored (f.bits digit)) r

/-- What a row reads off a raw tail: whether it takes LOCK before a memory operand, and the instruction. -/
def ModRow.read : ModRow → Tail → Option (Bool × Instr)
  | .rm lock f, .modrm (.ignored _) x .none => some (lock, f x)
  | .rmIb lock f, .modrm (.ignored _) x (.ib v) => some (lock, f x v)
  | .rmIz lock f, .modrm (.ignored _) x (.iz v) => some (lock, f x v)
  | .mem f, .modrm (.ignored _) (.mem m) .none => some (false, f m)
  | .fixedReg f, .fixedReg md (.ignored _) r => some (false, f md r)
  | _, _ => Option.none

/-- The reg field of a raw tail. -/
def Tail.regBits : Tail → BitVec 3
  | .modrm (.ignored g) _ _ => g
  | .fixedReg _ (.ignored g) _ => g
  | _ => 0

/-- What an entry of an opcode map reads off a raw tail. -/
def Entry.read : Entry → Tail → Option (Bool × Instr)
  | .plain i, .plain .none => some (false, i)
  | .ib f, .plain (.ib v) => some (false, f v)
  | .iw f, .plain (.iw v) => some (false, f v)
  | .iz f, .plain (.iz v) => some (false, f v)
  | .moffs f, .plain (.moffs v) => some (false, f v)
  | .far f, .plain (.far off sel) => some (false, f off sel)
  | .modrm lock f, t => ((f t.regBits).read t).map fun p => (lock && p.1, p.2)
  | .group f, t => (f t.regBits).read t
  | _, _ => Option.none

/-- The entry at the bytes of an opcode. -/
def entryAt (pe : Bool) : List Byte → Entry
  | [b] => opcode1 b
  | [b0, b] => if b0 = 0x0F then opcode2 pe b else .none
  | _ => .none

/-- SLDT, STR, LLDT and LTR, which real mode refuses (30_encoding R211). -/
def Instr.needsPE : Instr → Bool
  | .sldtRm16 _ | .strRm16 _ | .lldtRm16 _ | .ltrRm16 _ => true
  | _ => false

/-- By constructor; a register or condition number in the opcode or the reg field by its value. 8E does not load CS
(30_encoding R204). -/
theorem entryAt_reads {pe : Bool} {i : Instr} {c : Ctx} (hpe : i.needsPE = true → pe = true)
    (hfits : i.form.tail.fits c = true) :
    (entryAt pe i.opcode.1).read (i.form.tail.raw i.opcode.2) = some (i.form.lockable, i) := by
  cases i
  case sldtRm16 | strRm16 | lldtRm16 | ltrRm16 => cases hpe rfl; rfl
  case movSregRm16 sr rm =>
    cases sr
    case cs => cases hfits
    all_goals rfl
  case movRm16Sreg rm sr => cases sr <;> rfl
  case movR32Cr k | movCrR32 k _ => cases k <;> rfl
  case movR32Dr k | movDrR32 k _ => cases k <;> rfl
  case jccRel8 cc _ | jccRelz cc _ | setccRm8 cc _ _ => cases cc <;> rfl
  case addRm8R8 r | addRmvRv r | addR8Rm8 r _ | addRvRmv r _ | orRm8R8 r | orRmvRv r | orR8Rm8 r _ | orRvRmv r _ |
      adcRm8R8 r | adcRmvRv r | adcR8Rm8 r _ | adcRvRmv r _ | sbbRm8R8 r | sbbRmvRv r | sbbR8Rm8 r _ | sbbRvRmv r _ |
      andRm8R8 r | andRmvRv r | andR8Rm8 r _ | andRvRmv r _ | subRm8R8 r | subRmvRv r | subR8Rm8 r _ | subRvRmv r _ |
      xorRm8R8 r | xorRmvRv r | xorR8Rm8 r _ | xorRvRmv r _ | cmpRm8R8 r | cmpRmvRv r | cmpR8Rm8 r _ | cmpRvRmv r _ |
      incRv r | decRv r | pushRv r | popRv r | imulRvRmvIz r _ _ | imulRvRmvIbs r _ _ | testRm8R8 r | testRmvRv r |
      xchgRm8R8 r | xchgRmvRv r | movRm8R8 r | movRmvRv r | movR8Rm8 r _ | movRvRmv r _ | leaRvM r _ | movR8Ib r _ |
      movRvIz r _ | lesRvMem r _ | ldsRvMem r _ | shldRmvRvIb r _ | shldRmvRvCl r | shrdRmvRvIb r _ | shrdRmvRvCl r |
      imulRvRmv r _ | lssRvMem r _ | lfsRvMem r _ | lgsRvMem r _ | movzxRvRm8 r _ | movzxRvRm16 r _ | movsxRvRm8 r _ |
      movsxRvRm16 r _ => cases r <;> rfl
  all_goals rfl

end Sys2Proof
end

section
/-! PROOF. From bytes to a row: whatever an entry of the opcode maps reads has that opcode, those operands and that use of
LOCK (30_encoding R166, R170, R200 to R202). -/

namespace Sys2Proof

/-! ### Rows that are read as they are laid out -/

/-- An instruction is laid out as an entry reads it: its opcode, its use of LOCK, its raw operands, and nothing but them to
fit a context. -/
structure Instr.HasRow (i : Instr) (op : List Byte) (lock : Bool) (t : Tail) : Prop where
  opcode : i.opcode.1 = op
  lockable : i.form.lockable = lock
  tail : i.form.tail.raw i.opcode.2 = t
  fits : ∀ c, t.fits c = true → i.form.tail.fits c = true

/-- Every instruction that a row makes with the reg field g is laid out so. -/
def ModRow.Sound (op : List Byte) (lock : Bool) (g : BitVec 3) : ModRow → Prop
  | .none _ => True
  | .rm l f => ∀ x, (f x).HasRow op (lock && l) (.modrm (.ignored g) x .none)
  | .rmIb l f => ∀ x v, (f x v).HasRow op (lock && l) (.modrm (.ignored g) x (.ib v))
  | .rmIz l f => ∀ x v, (f x v).HasRow op (lock && l) (.modrm (.ignored g) x (.iz v))
  | .mem f => ∀ m, (f m).HasRow op false (.modrm (.ignored g) (.mem m) .none)
  | .fixedReg f => ∀ md r, (f md r).HasRow op false (.fixedReg md (.ignored g) r)

/-- Every instruction that an entry reads is laid out as it is read, and a Pfx or the escape stands at its own byte. -/
def Entry.Sound (op : List Byte) : Entry → Prop
  | .none => True
  | .pfx p => op = [p.byte]
  | .escape => op = [0x0F]
  | .plain i => i.HasRow op false (.plain .none)
  | .ib f => ∀ v, (f v).HasRow op false (.plain (.ib v))
  | .iw f => ∀ v, (f v).HasRow op false (.plain (.iw v))
  | .iz f => ∀ v, (f v).HasRow op false (.plain (.iz v))
  | .moffs f => ∀ v, (f v).HasRow op false (.plain (.moffs v))
  | .far f => ∀ off sel, (f off sel).HasRow op false (.plain (.far off sel))
  | .modrm lock f => ∀ g, (f g).Sound op lock g
  | .group f => ∀ g, (f g).Sound op true g

section
variable {i : Instr} {op : List Byte} {lock : Bool} (hop : i.opcode.1 = op) (hlock : i.form.lockable = lock)
include hop hlock

theorem row_of_plain {imm : Imm} (htail : i.form.tail = .plain imm) : i.HasRow op lock (.plain imm) :=
  ⟨hop, hlock, by rw [htail]; rfl, fun c h => by rw [htail]; exact h⟩

theorem row_of_modrm {g : BitVec 3} {f : RegField} {x : RM} {imm : Imm} (htail : i.form.tail = .modrm f x imm)
    (hg : f.bits i.opcode.2 = g) (hf : f.fits = true) : i.HasRow op lock (.modrm (.ignored g) x imm) :=
  ⟨hop, hlock, by rw [htail, Tail.raw, hg], fun c h => by rw [htail, Tail.fits, hf]; exact h⟩

theorem row_of_fixedReg {g : BitVec 3} {f : RegField} {md : BitVec 2} {r : Reg} (htail : i.form.tail = .fixedReg md f r)
    (hg : f.bits i.opcode.2 = g) (hf : f.fits = true) : i.HasRow op lock (.fixedReg md (.ignored g) r) :=
  ⟨hop, hlock, by rw [htail, Tail.raw, hg], fun c _ => by rw [htail, Tail.fits, hf]⟩

end

theorem forall_bitVec3 {P : BitVec 3 → Prop} (h0 : P 0) (h1 : P 1) (h2 : P 2) (h3 : P 3) (h4 : P 4) (h5 : P 5) (h6 : P 6)
    (h7 : P 7) : ∀ b, P b := by
  rintro ⟨⟨n, hn⟩⟩
  interval_cases n <;> assumption

theorem forall_bitVec4 {P : BitVec 4 → Prop} (h0 : P 0) (h1 : P 1) (h2 : P 2) (h3 : P 3) (h4 : P 4) (h5 : P 5) (h6 : P 6)
    (h7 : P 7) (h8 : P 8) (h9 : P 9) (hA : P 10) (hB : P 11) (hC : P 12) (hD : P 13) (hE : P 14) (hF : P 15) :
    ∀ b, P b := by
  rintro ⟨⟨n, hn⟩⟩
  interval_cases n <;> assumption

/-! ### The groups (30_encoding R170, R201, R202) -/

theorem group80_sound : (Entry.group group80).Sound [0x80] := by
  apply forall_bitVec3
  all_goals exact fun x v => row_of_modrm rfl rfl rfl rfl rfl

theorem group81_sound : (Entry.group group81).Sound [0x81] := by
  apply forall_bitVec3
  all_goals exact fun x v => row_of_modrm rfl rfl rfl rfl rfl

theorem group83_sound : (Entry.group group83).Sound [0x83] := by
  apply forall_bitVec3
  all_goals exact fun x v => row_of_modrm rfl rfl rfl rfl rfl

theorem group8F_sound : (Entry.group group8F).Sound [0x8F] := by
  apply forall_bitVec3
  case h1 | h2 | h3 | h4 | h5 | h6 | h7 => trivial
  all_goals exact fun x => row_of_modrm rfl rfl rfl rfl rfl

theorem groupC0_sound : (Entry.group groupC0).Sound [0xC0] := by
  apply forall_bitVec3
  case h6 => trivial
  all_goals exact fun x v => row_of_modrm rfl rfl rfl rfl rfl

theorem groupC1_sound : (Entry.group groupC1).Sound [0xC1] := by
  apply forall_bitVec3
  case h6 => trivial
  all_goals exact fun x v => row_of_modrm rfl rfl rfl rfl rfl

theorem groupC6_sound : (Entry.group groupC6).Sound [0xC6] := by
  apply forall_bitVec3
  case h1 | h2 | h3 | h4 | h5 | h6 | h7 => trivial
  all_goals exact fun x v => row_of_modrm rfl rfl rfl rfl rfl

theorem groupC7_sound : (Entry.group groupC7).Sound [0xC7] := by
  apply forall_bitVec3
  case h1 | h2 | h3 | h4 | h5 | h6 | h7 => trivial
  all_goals exact fun x v => row_of_modrm rfl rfl rfl rfl rfl

theorem groupD0_sound : (Entry.group groupD0).Sound [0xD0] := by
  apply forall_bitVec3
  case h6 => trivial
  all_goals exact fun x => row_of_modrm rfl rfl rfl rfl rfl

theorem groupD1_sound : (Entry.group groupD1).Sound [0xD1] := by
  apply forall_bitVec3
  case h6 => trivial
  all_goals exact fun x => row_of_modrm rfl rfl rfl rfl rfl

theorem groupD2_sound : (Entry.group groupD2).Sound [0xD2] := by
  apply forall_bitVec3
  case h6 => trivial
  all_goals exact fun x => row_of_modrm rfl rfl rfl rfl rfl

theorem groupD3_sound : (Entry.group groupD3).Sound [0xD3] := by
  apply forall_bitVec3
  case h6 => trivial
  all_goals exact fun x => row_of_modrm rfl rfl rfl rfl rfl

theorem groupF6_sound : (Entry.group groupF6).Sound [0xF6] := by
  apply forall_bitVec3
  case h0 => exact fun x v => row_of_modrm rfl rfl rfl rfl rfl
  case h1 => trivial
  all_goals exact fun x => row_of_modrm rfl rfl rfl rfl rfl

theorem groupF7_sound : (Entry.group groupF7).Sound [0xF7] := by
  apply forall_bitVec3
  case h0 => exact fun x v => row_of_modrm rfl rfl rfl rfl rfl
  case h1 => trivial
  all_goals exact fun x => row_of_modrm rfl rfl rfl rfl rfl

theorem groupFE_sound : (Entry.group groupFE).Sound [0xFE] := by
  apply forall_bitVec3
  case h2 | h3 | h4 | h5 | h6 | h7 => trivial
  all_goals exact fun x => row_of_modrm rfl rfl rfl rfl rfl

theorem groupFF_sound : (Entry.group groupFF).Sound [0xFF] := by
  apply forall_bitVec3
  case h7 => trivial
  all_goals exact fun x => row_of_modrm rfl rfl rfl rfl rfl

theorem group0F00_sound (pe : Bool) : (Entry.group (group0F00 pe)).Sound [0x0F, 0x00] := by
  apply forall_bitVec3
  case h4 | h5 | h6 | h7 => trivial
  all_goals
    cases pe
    case false => trivial
    case true => exact fun x => row_of_modrm rfl rfl rfl rfl rfl

theorem group0F01_sound : (Entry.group group0F01).Sound [0x0F, 0x01] := by
  apply forall_bitVec3
  case h5 | h7 => trivial
  all_goals exact fun x => row_of_modrm rfl rfl rfl rfl rfl

/-! ### The opcode maps (30_encoding R201, R202) -/

theorem op0_sound (lo : BitVec 4) : (op0 lo).Sound [0#4 ++ lo] := by
  revert lo
  apply forall_bitVec4
  case h0 | h1 | h2 | h3 | h8 | h9 | hA | hB => exact fun g x => row_of_modrm rfl rfl rfl (Reg.bits_ofBits g) rfl
  case h4 | h5 | hC | hD => exact fun v => row_of_plain rfl rfl rfl
  case h6 | h7 | hE => exact row_of_plain rfl rfl rfl
  case hF => rfl

theorem op1_sound (lo : BitVec 4) : (op1 lo).Sound [1#4 ++ lo] := by
  revert lo
  apply forall_bitVec4
  case h0 | h1 | h2 | h3 | h8 | h9 | hA | hB => exact fun g x => row_of_modrm rfl rfl rfl (Reg.bits_ofBits g) rfl
  case h4 | h5 | hC | hD => exact fun v => row_of_plain rfl rfl rfl
  case h6 | h7 | hE | hF => exact row_of_plain rfl rfl rfl

theorem op2_sound (lo : BitVec 4) : (op2 lo).Sound [2#4 ++ lo] := by
  revert lo
  apply forall_bitVec4
  case h0 | h1 | h2 | h3 | h8 | h9 | hA | hB => exact fun g x => row_of_modrm rfl rfl rfl (Reg.bits_ofBits g) rfl
  case h4 | h5 | hC | hD => exact fun v => row_of_plain rfl rfl rfl
  case h6 | hE => rfl
  case h7 | hF => trivial

theorem op3_sound (lo : BitVec 4) : (op3 lo).Sound [3#4 ++ lo] := by
  revert lo
  apply forall_bitVec4
  case h0 | h1 | h2 | h3 | h8 | h9 | hA | hB => exact fun g x => row_of_modrm rfl rfl rfl (Reg.bits_ofBits g) rfl
  case h4 | h5 | hC | hD => exact fun v => row_of_plain rfl rfl rfl
  case h6 | hE => rfl
  case h7 | hF => trivial

theorem op4_sound (lo : BitVec 4) : (op4 lo).Sound [4#4 ++ lo] := by
  revert lo
  apply forall_bitVec4 <;> exact row_of_plain rfl rfl rfl

theorem op5_sound (lo : BitVec 4) : (op5 lo).Sound [5#4 ++ lo] := by
  revert lo
  apply forall_bitVec4 <;> exact row_of_plain rfl rfl rfl

theorem op6_sound (lo : BitVec 4) : (op6 lo).Sound [6#4 ++ lo] := by
  revert lo
  apply forall_bitVec4
  case h0 | h1 | hC | hD | hE | hF => exact row_of_plain rfl rfl rfl
  case h2 | h3 => trivial
  case h4 | h5 | h6 | h7 => rfl
  case h8 | hA => exact fun v => row_of_plain rfl rfl rfl
  case h9 | hB => exact fun g x v => row_of_modrm rfl rfl rfl (Reg.bits_ofBits g) rfl

theorem op7_sound (lo : BitVec 4) : (op7 lo).Sound [7#4 ++ lo] := by
  revert lo
  apply forall_bitVec4 <;> exact fun v => row_of_plain rfl rfl rfl

theorem op8_sound (lo : BitVec 4) : (op8 lo).Sound [8#4 ++ lo] := by
  revert lo
  apply forall_bitVec4
  case h0 => exact group80_sound
  case h1 => exact group81_sound
  case h2 => trivial
  case h3 => exact group83_sound
  case h4 | h5 | h6 | h7 | h8 | h9 | hA | hB | hD => exact fun g x => row_of_modrm rfl rfl rfl (Reg.bits_ofBits g) rfl
  case hC =>
    apply forall_bitVec3
    case h6 | h7 => trivial
    all_goals exact fun x => row_of_modrm rfl rfl rfl rfl rfl
  case hE =>
    apply forall_bitVec3
    case h1 | h6 | h7 => trivial
    all_goals exact fun x => row_of_modrm rfl rfl rfl rfl rfl
  case hF => exact group8F_sound

theorem op9_sound (lo : BitVec 4) : (op9 lo).Sound [9#4 ++ lo] := by
  revert lo
  apply forall_bitVec4
  case hA => exact fun off sel => row_of_plain rfl rfl rfl
  case hB => trivial
  all_goals exact row_of_plain rfl rfl rfl

theorem opA_sound (lo : BitVec 4) : (opA lo).Sound [10#4 ++ lo] := by
  revert lo
  apply forall_bitVec4
  case h0 | h1 | h2 | h3 | h8 | h9 => exact fun v => row_of_plain rfl rfl rfl
  all_goals exact row_of_plain rfl rfl rfl

theorem opB_sound (lo : BitVec 4) : (opB lo).Sound [11#4 ++ lo] := by
  revert lo
  apply forall_bitVec4 <;> exact fun v => row_of_plain rfl rfl rfl

theorem opC_sound (lo : BitVec 4) : (opC lo).Sound [12#4 ++ lo] := by
  revert lo
  apply forall_bitVec4
  case h0 => exact groupC0_sound
  case h1 => exact groupC1_sound
  case h2 | hA | hD => exact fun v => row_of_plain rfl rfl rfl
  case h4 | h5 => exact fun g x => row_of_modrm rfl rfl rfl (Reg.bits_ofBits g) rfl
  case h6 => exact groupC6_sound
  case h7 => exact groupC7_sound
  case h8 => trivial
  all_goals exact row_of_plain rfl rfl rfl

theorem opD_sound (lo : BitVec 4) : (opD lo).Sound [13#4 ++ lo] := by
  revert lo
  apply forall_bitVec4
  case h0 => exact groupD0_sound
  case h1 => exact groupD1_sound
  case h2 => exact groupD2_sound
  case h3 => exact groupD3_sound
  case h7 => exact row_of_plain rfl rfl rfl
  all_goals trivial

theorem opE_sound (lo : BitVec 4) : (opE lo).Sound [14#4 ++ lo] := by
  revert lo
  apply forall_bitVec4
  case h0 | h1 | h2 | h3 | h4 | h5 | h6 | h7 | h8 | h9 | hB => exact fun v => row_of_plain rfl rfl rfl
  case hA => exact fun off sel => row_of_plain rfl rfl rfl
  case hC | hD | hE | hF => exact row_of_plain rfl rfl rfl

theorem opF_sound (lo : BitVec 4) : (opF lo).Sound [15#4 ++ lo] := by
  revert lo
  apply forall_bitVec4
  case h0 | h2 | h3 => rfl
  case h1 => trivial
  case h6 => exact groupF6_sound
  case h7 => exact groupF7_sound
  case hE => exact groupFE_sound
  case hF => exact groupFF_sound
  all_goals exact row_of_plain rfl rfl rfl

theorem op0F0_sound (pe : Bool) (lo : BitVec 4) : (op0F0 pe lo).Sound [0x0F, 0#4 ++ lo] := by
  revert lo
  apply forall_bitVec4
  case h0 => exact group0F00_sound pe
  case h1 => exact group0F01_sound
  case h6 => exact row_of_plain rfl rfl rfl
  all_goals trivial

theorem op0F2_sound (lo : BitVec 4) : (op0F2 lo).Sound [0x0F, 2#4 ++ lo] := by
  revert lo
  apply forall_bitVec4
  case h0 | h2 =>
    apply forall_bitVec3
    case h0 | h2 | h3 => exact fun md r => row_of_fixedReg rfl rfl rfl rfl rfl
    all_goals trivial
  case h1 | h3 =>
    apply forall_bitVec3
    case h4 | h5 => trivial
    all_goals exact fun md r => row_of_fixedReg rfl rfl rfl rfl rfl
  all_goals trivial

theorem op0F8_sound (lo : BitVec 4) : (op0F8 lo).Sound [0x0F, 8#4 ++ lo] := by
  revert lo
  apply forall_bitVec4 <;> exact fun v => row_of_plain rfl rfl rfl

theorem op0F9_sound (lo : BitVec 4) : (op0F9 lo).Sound [0x0F, 9#4 ++ lo] := by
  revert lo
  apply forall_bitVec4 <;> exact fun g x => row_of_modrm rfl rfl rfl rfl rfl

theorem op0FA_sound (lo : BitVec 4) : (op0FA lo).Sound [0x0F, 10#4 ++ lo] := by
  revert lo
  apply forall_bitVec4
  case h0 | h1 | h8 | h9 => exact row_of_plain rfl rfl rfl
  case h4 | hC => exact fun g x v => row_of_modrm rfl rfl rfl (Reg.bits_ofBits g) rfl
  case h5 | hD | hF => exact fun g x => row_of_modrm rfl rfl rfl (Reg.bits_ofBits g) rfl
  all_goals trivial

theorem op0FB_sound (lo : BitVec 4) : (op0FB lo).Sound [0x0F, 11#4 ++ lo] := by
  revert lo
  apply forall_bitVec4
  case h2 | h4 | h5 | h6 | h7 | hE | hF => exact fun g x => row_of_modrm rfl rfl rfl (Reg.bits_ofBits g) rfl
  all_goals trivial

section
variable (hi lo : BitVec 4)

theorem highNibble_append : (hi ++ lo).extractLsb' 4 4 = hi := by
  simp only [-Nat.reduceAdd, BitVec.extractLsb'_append_eq_ite]
  simp

theorem lowNibble_append : (hi ++ lo).extractLsb' 0 4 = lo := by
  simp only [-Nat.reduceAdd, BitVec.extractLsb'_append_eq_ite]
  simp

end

theorem exists_nibbles (b : Byte) : ∃ hi lo : BitVec 4, b = hi ++ lo :=
  ⟨b.extractLsb' 4 4, b.extractLsb' 0 4, by revert b; decide⟩

theorem opcode1_sound (b : Byte) : (opcode1 b).Sound [b] := by
  obtain ⟨hi, lo, rfl⟩ := exists_nibbles b
  unfold opcode1
  rw [highNibble_append, lowNibble_append]
  revert hi
  exact forall_bitVec4 (op0_sound lo) (op1_sound lo) (op2_sound lo) (op3_sound lo) (op4_sound lo) (op5_sound lo)
    (op6_sound lo) (op7_sound lo) (op8_sound lo) (op9_sound lo) (opA_sound lo) (opB_sound lo) (opC_sound lo)
    (opD_sound lo) (opE_sound lo) (opF_sound lo)

theorem opcode2_sound (pe : Bool) (b : Byte) : (opcode2 pe b).Sound [0x0F, b] := by
  obtain ⟨hi, lo, rfl⟩ := exists_nibbles b
  unfold opcode2
  rw [highNibble_append, lowNibble_append]
  revert hi
  exact forall_bitVec4 (op0F0_sound pe lo) trivial (op0F2_sound lo) trivial trivial trivial trivial trivial
    (op0F8_sound lo) (op0F9_sound lo) (op0FA_sound lo) (op0FB_sound lo) trivial trivial trivial trivial

end Sys2Proof
end

section
/-! PROOF. The decoder and the encoder (30_encoding R160 to R182): each undoes the other. -/

namespace Sys2Proof

/-! ### Raw tails -/

theorem Tail.encode_raw (c : Ctx) (digit d : BitVec 3) (t : Tail) : (t.raw digit).encode c d = t.encode c digit := by
  cases t <;> rfl

theorem Tail.hasMem_raw (digit : BitVec 3) (t : Tail) : (t.raw digit).hasMem = t.hasMem := by
  rcases t with _ | ⟨_, _ | _, _⟩ | _ <;> rfl

theorem Tail.fits_raw {c : Ctx} {digit : BitVec 3} {t : Tail} (h : t.fits c = true) : (t.raw digit).fits c = true := by
  cases t with
  | plain i => exact h
  | modrm f rm i =>
    simp only [fits, Bool.and_eq_true] at h
    obtain ⟨⟨-, hrm⟩, hi⟩ := h
    simp [raw, fits, RegField.fits, hrm, hi]
  | fixedReg md f r => rfl

/-! ### What the decoder accepts -/

theorem Taken.finish_eq_ok {α : Type} {t : Taken α} {c c' : Ctx} {total : Nat} {f : α → Instr} {i : Instr}
    {rest : List Byte} :
    t.finish c total f = .ok c' i rest ↔ ∃ v, t = some (v, rest) ∧ c' = c.closed total rest ∧ i = f v := by
  cases t with
  | none => simp [finish]
  | some p =>
    obtain ⟨v, r⟩ := p
    simp only [finish, Decoded.ok.injEq, Option.some.injEq, Prod.mk.injEq]
    constructor
    · rintro ⟨rfl, rfl, rfl⟩; exact ⟨v, ⟨rfl, rfl⟩, rfl, rfl⟩
    · rintro ⟨w, ⟨rfl, rfl⟩, rfl, rfl⟩; exact ⟨rfl, rfl, rfl⟩

theorem reject_or_ok {p : Prop} [Decidable p] {why : Reject} {d : Decoded} {c : Ctx} {i : Instr} {rest : List Byte} :
    (if p then .reject why else d) = .ok c i rest ↔ ¬p ∧ d = .ok c i rest := by
  split <;> simp [*]

/-- A 16-bit value is held zero-extended (30_encoding R180). -/
theorem sizedFits_iff {sz : Size} {v : Word} :
    (sz == .b32 || decide (v.toNat < 65536)) = true ↔ sz = .b32 ∨ v.toNat < 65536 := by
  simp

/-- The bytes after an opcode begin with the operands of an instruction that has this opcode; they fit the context, and
LOCK stands only where the row takes it, before a memory operand. -/
def ReadsOperands (c : Ctx) (op bs : List Byte) (i : Instr) (rest : List Byte) : Prop :=
  ∃ t lock, i.HasRow op lock t ∧ bs = t.encode c 0 ++ rest ∧ t.fits c = true ∧
    (c.locked = true → lock = true ∧ t.hasMem = true)

section
variable {c c' : Ctx} {total : Nat} {op bs rest : List Byte} {i : Instr}

theorem readsOperands_plain {imm : Imm} (hrow : i.HasRow op false (.plain imm)) (hc : ¬c.locked = true)
    (hbs : bs = imm.encode c ++ rest) (hfits : imm.fits c = true) : ReadsOperands c op bs i rest :=
  ⟨_, _, hrow, hbs, hfits, fun h => absurd h hc⟩

theorem readsOperands_rm {md : BitVec 2} {g rm : BitVec 3} {lock l : Bool} {x : RM} {imm : Imm} {r : List Byte}
    (hrow : i.HasRow op (lock && l) (.modrm (.ignored g) x imm)) (hlock : c.locked = true → lock = true)
    (hl : ¬(c.locked && !(l && md != 3)) = true) (hx : takeRM c.asz md rm bs = some (x, r))
    (hr : r = imm.encode c ++ rest) (hfits : imm.fits c = true) :
    ReadsOperands c op (threeFields md g rm :: bs) i rest := by
  obtain ⟨hbs, hxfits, hmem⟩ := takeRM_some c.asz_cases hx g
  refine ⟨_, _, hrow, by rw [hbs, hr, Tail.encode, List.append_assoc]; rfl, ?_, fun hc => ?_⟩
  · rw [Tail.fits, hxfits, hfits]; rfl
  · simp only [hc, Bool.true_and, Bool.not_eq_true', Bool.not_eq_false, Bool.and_eq_true, bne_iff_ne] at hl
    obtain ⟨m, rfl⟩ := hmem hl.2
    exact ⟨by rw [hlock hc, hl.1]; rfl, rfl⟩

theorem decodeModRow_ok {md : BitVec 2} {g rm : BitVec 3} {lock : Bool} {row : ModRow} (hrow : row.Sound op lock g)
    (hlock : c.locked = true → lock = true) (h : decodeModRow c total md rm row bs = .ok c' i rest) :
    ReadsOperands c op (threeFields md g rm :: bs) i rest ∧ c' = c.closed total rest := by
  cases row <;> simp only [decodeModRow, reject_or_ok] at h
  case none => cases h
  case rm l f =>
    obtain ⟨hl, h⟩ := h
    obtain ⟨x, hx, rfl, rfl⟩ := Taken.finish_eq_ok.1 h
    exact ⟨readsOperands_rm (hrow x) hlock hl hx rfl rfl, rfl⟩
  case rmIb l f =>
    obtain ⟨hl, h⟩ := h
    split at h
    · cases h
    · next x r hx =>
      obtain ⟨v, hv, rfl, rfl⟩ := Taken.finish_eq_ok.1 h
      exact ⟨readsOperands_rm (hrow x v) hlock hl hx (take8_eq_some.1 hv) rfl, rfl⟩
  case rmIz l f =>
    obtain ⟨hl, h⟩ := h
    split at h
    · cases h
    · next x r hx =>
      obtain ⟨v, hv, rfl, rfl⟩ := Taken.finish_eq_ok.1 h
      obtain ⟨hr, hfits⟩ := takeSized_eq_some.1 hv
      exact ⟨readsOperands_rm (hrow x v) hlock hl hx hr (sizedFits_iff.2 hfits), rfl⟩
  case mem f =>
    obtain ⟨hmd, hc, h⟩ := h
    obtain ⟨m, hm, rfl, rfl⟩ := Taken.finish_eq_ok.1 h
    have hx : takeRM c.asz md rm bs = some (.mem m, rest) := by simp only [takeRM, if_neg hmd, hm]
    have hl : ¬(c.locked && !(false && md != 3)) = true := by simpa using hc
    exact ⟨readsOperands_rm (lock := lock) (l := false) (by simpa using hrow m) hlock hl hx rfl rfl, rfl⟩
  case fixedReg f =>
    obtain ⟨hc, h⟩ := h
    cases h
    refine ⟨⟨_, _, hrow _ _, ?_, rfl, fun h => absurd h hc⟩, rfl⟩
    rw [Tail.encode, Reg.bits_ofBits]; rfl

theorem decodeModRM_ok {lock : Bool} {f : BitVec 3 → ModRow} (hrow : ∀ g, (f g).Sound op lock g)
    (hlock : c.locked = true → lock = true) (h : decodeModRM c total f bs = .ok c' i rest) :
    ReadsOperands c op bs i rest ∧ c' = c.closed total rest := by
  cases bs with
  | nil => cases h
  | cons b r =>
    have hok := decodeModRow_ok (hrow _) hlock h
    rwa [threeFields_fields] at hok

/-- An entry reads an instruction of its opcode, with the operands that the bytes encode. -/
theorem decodeEntry_ok {e : Entry} (hrow : e.Sound op) (h : decodeEntry c total e bs = .ok c' i rest) :
    ReadsOperands c op bs i rest ∧ c' = c.closed total rest := by
  cases e
  case none | pfx | escape => cases h
  case group f => exact decodeModRM_ok hrow (fun _ => rfl) h
  all_goals
    simp only [decodeEntry, reject_or_ok] at h
    obtain ⟨hc, h⟩ := h
  case plain j => cases h; exact ⟨readsOperands_plain hrow hc rfl rfl, rfl⟩
  case modrm lock f => exact decodeModRM_ok hrow (by simpa using hc) h
  all_goals obtain ⟨v, hv, rfl, rfl⟩ := Taken.finish_eq_ok.1 h
  case ib f => exact ⟨readsOperands_plain (hrow v) hc (take8_eq_some.1 hv) rfl, rfl⟩
  case iw f => exact ⟨readsOperands_plain (hrow v) hc (take16_eq_some.1 hv) rfl, rfl⟩
  case iz f =>
    obtain ⟨hbs, hfits⟩ := takeSized_eq_some.1 hv
    exact ⟨readsOperands_plain (hrow v) hc hbs (sizedFits_iff.2 hfits), rfl⟩
  case moffs f =>
    obtain ⟨hbs, hfits⟩ := takeSized_eq_some.1 hv
    exact ⟨readsOperands_plain (hrow v) hc hbs (sizedFits_iff.2 hfits), rfl⟩
  case far f =>
    obtain ⟨hbs, hfits⟩ := takeFar_eq_some.1 hv
    exact ⟨readsOperands_plain (hrow v.1 v.2) hc hbs (sizedFits_iff.2 hfits), rfl⟩

end

/-! ### Prefixes and opcodes (30_encoding R160, R164) -/

@[simp] theorem opcode1_pfxByte (p : Pfx) : opcode1 p.byte = .pfx p := by
  cases p with
  | seg r => cases r <;> rfl
  | _ => rfl

section
variable {pe big : Bool} {total : Nat}

/-- Prefix bytes are gathered in order. -/
theorem decodeFrom_prefixes (seen ps : List Pfx) (bs : List Byte) :
    decodeFrom pe big total seen (ps.map Pfx.byte ++ bs) = decodeFrom pe big total (seen ++ ps) bs := by
  induction ps generalizing seen with
  | nil => simp
  | cons p ps ih => simp [decodeFrom, ih]

theorem decodeFrom_opcode2 (seen : List Pfx) (b : Byte) (bs : List Byte) :
    decodeFrom pe big total seen (0x0F :: b :: bs) = decodeEntry ⟨seen, big, 0⟩ total (opcode2 pe b) bs := rfl

theorem decodeFrom_opcode1 (seen : List Pfx) {b : Byte} (hpfx : ∀ p, opcode1 b ≠ .pfx p) (hesc : opcode1 b ≠ .escape)
    (bs : List Byte) : decodeFrom pe big total seen (b :: bs) = decodeEntry ⟨seen, big, 0⟩ total (opcode1 b) bs := by
  unfold decodeFrom
  split
  · next h => exact absurd h (hpfx _)
  · next h => exact absurd h hesc
  · rfl

theorem decodeFrom_ok {seen : List Pfx} {bs rest : List Byte} {c : Ctx} {i : Instr}
    (h : decodeFrom pe big total seen bs = .ok c i rest) :
    ∃ ps op r, bs = ps.map Pfx.byte ++ op ++ r ∧ ReadsOperands ⟨seen ++ ps, big, 0⟩ op r i rest ∧
      c = Ctx.closed ⟨seen ++ ps, big, 0⟩ total rest := by
  induction bs generalizing seen with
  | nil => cases h
  | cons b bs ih =>
    have hb := opcode1_sound b
    unfold decodeFrom at h
    split at h
    · next p hp =>
      obtain ⟨ps, op, r, rfl, hok⟩ := ih h
      rw [hp] at hb
      obtain rfl : b = p.byte := List.singleton_inj.1 hb
      exact ⟨p :: ps, op, r, rfl, by simpa using hok⟩
    · next hesc =>
      rw [hesc] at hb
      obtain rfl : b = 0x0F := List.singleton_inj.1 hb
      split at h
      · cases h
      · next b2 r2 =>
        refine ⟨[], [0x0F, b2], r2, rfl, ?_⟩
        rw [List.append_nil]
        exact decodeEntry_ok (opcode2_sound pe b2) h
    · refine ⟨[], [b], bs, rfl, ?_⟩
      rw [List.append_nil]
      exact decodeEntry_ok hb h

end

/-- Settles O23: every row of the opcode maps reads instructions of its own opcode, with the operands that the bytes encode
and their fit; the prefixes before it are those of the context. -/
theorem decodeThenEncode : Obligations.DecodeThenEncode := by
  unfold Obligations.DecodeThenEncode
  intro pe big bs c i rest hlen h
  obtain ⟨ps, op, r, hbs, ⟨t, lock, ⟨rfl, rfl, rfl, hfits⟩, rfl, ht, hlock⟩, rfl⟩ := decodeFrom_ok h
  rw [List.nil_append] at *
  have hcode : bs = i.encode (Ctx.closed ⟨ps, big, 0⟩ bs.length rest) ++ rest := by
    rw [Tail.encode_raw] at hbs
    exact hbs.trans (List.append_assoc ..).symm
  have hlength : i.form.length (Ctx.closed ⟨ps, big, 0⟩ bs.length rest) = bs.length - rest.length := by
    rw [← i.encode_length]
    have := congrArg List.length hcode
    rw [List.length_append] at this
    omega
  refine ⟨hcode, ?_, rfl⟩
  simp only [Instr.wf, Instr.lengthOk, Instr.shortEnough, Instr.operandsOk, Instr.lockOk, Bool.and_eq_true]
  refine ⟨⟨⟨?_, ?_⟩, hfits _ ht⟩, ?_⟩
  · exact beq_iff_eq.2 hlength.symm
  · exact decide_eq_true (hlength.trans_le (by omega))
  · cases hc : Ctx.locked _ with
    | false => rfl
    | true =>
      obtain ⟨hl, hm⟩ := hlock hc
      rw [hl, ← Tail.hasMem_raw i.opcode.2, hm]
      rfl

/-! ### What the encoder writes -/

section
variable {c : Ctx} {total : Nat} {i : Instr} {t : Tail} {lock : Bool}

/-- Operands that fit, with LOCK only where it is taken, are a ModRM byte whose r/m operand is read back. -/
theorem encode_modrm {g : BitVec 3} {x : RM} {imm : Imm} (ht : (Tail.modrm (.ignored g) x imm).fits c = true)
    (hlock : c.locked = true → lock = true ∧ (Tail.modrm (.ignored g) x imm).hasMem = true) (rest : List Byte) :
    ∃ md rm bs, Tail.encode c 0 (.modrm (.ignored g) x imm) = threeFields md g rm :: bs ∧
      ¬(c.locked && !(lock && md != 3)) = true ∧ takeRM c.asz md rm (bs ++ rest) = some (x, imm.encode c ++ rest) ∧
      imm.fits c = true := by
  simp only [Tail.fits, Bool.and_eq_true] at ht
  obtain ⟨⟨-, hx⟩, himm⟩ := ht
  obtain ⟨md, rm, bs, hbs, hmd, htake⟩ := RM.encode_taken hx g
  refine ⟨md, rm, bs ++ imm.encode c, ?_, fun hl => ?_, ?_, himm⟩
  · rw [Tail.encode, RegField.bits, hbs, List.cons_append]
  · obtain ⟨hc, hno⟩ := Bool.and_eq_true_iff.1 hl
    obtain ⟨rfl, hmem⟩ := hlock hc
    cases x with
    | reg r => cases hmem
    | mem m => exact hmd.2 ⟨m, rfl⟩ (by simpa using hno)
  · rw [List.append_assoc, htake]

/-- A row with a ModRM byte reads back the operands it is given. -/
theorem decodeModRow_read {row : ModRow} (hread : row.read t = some (lock, i)) (ht : t.fits c = true)
    (hlock : c.locked = true → lock = true ∧ t.hasMem = true) (rest : List Byte) :
    ∃ md rm bs, t.encode c 0 = threeFields md t.regBits rm :: bs ∧
      decodeModRow c total md rm row (bs ++ rest) = .ok (c.closed total rest) i rest := by
  unfold ModRow.read at hread
  split at hread <;> cases hread
  case h_1 f g x =>
    obtain ⟨md, rm, bs, hbs, hl, hx, -⟩ := encode_modrm ht hlock rest
    exact ⟨md, rm, bs, hbs, by rw [decodeModRow, if_neg hl, hx]; rfl⟩
  case h_2 f g x v =>
    obtain ⟨md, rm, bs, hbs, hl, hx, -⟩ := encode_modrm ht hlock rest
    exact ⟨md, rm, bs, hbs, by simp only [decodeModRow, if_neg hl, hx]; rfl⟩
  case h_3 f g x v =>
    obtain ⟨md, rm, bs, hbs, hl, hx, hv⟩ := encode_modrm ht hlock rest
    refine ⟨md, rm, bs, hbs, ?_⟩
    simp only [decodeModRow, if_neg hl, hx, Imm.encode, takeSized_eq_some.2 ⟨rfl, sizedFits_iff.1 hv⟩]
    rfl
  case h_4 f g m =>
    have hc : ¬c.locked = true := fun hc => nomatch (hlock hc).1
    simp only [Tail.fits, Bool.and_eq_true] at ht
    obtain ⟨md, rm, bs, hbs, hmd, htake⟩ := MemOp.encode_taken ht.1.2 g
    refine ⟨md, rm, bs, ?_, ?_⟩
    · rw [Tail.encode, RegField.bits, RM.encode, hbs, Imm.encode, List.append_nil]; rfl
    · rw [decodeModRow, if_neg hmd, if_neg hc, htake]; rfl
  case h_5 f md g r =>
    have hc : ¬c.locked = true := fun hc => nomatch (hlock hc).1
    exact ⟨md, r.bits, [], rfl, by rw [decodeModRow, if_neg hc, Reg.ofBits_bits]; rfl⟩

theorem decodeModRM_read {f : BitVec 3 → ModRow} (hread : (f t.regBits).read t = some (lock, i))
    (ht : t.fits c = true) (hlock : c.locked = true → lock = true ∧ t.hasMem = true) (rest : List Byte) :
    decodeModRM c total f (t.encode c 0 ++ rest) = .ok (c.closed total rest) i rest := by
  obtain ⟨md, rm, bs, hbs, hdec⟩ := decodeModRow_read hread ht hlock rest
  rw [hbs, List.cons_append, decodeModRM, threeFields_hi, threeFields_mid, threeFields_lo, hdec]

/-- An entry reads back the operands it is given. -/
theorem decodeEntry_read {e : Entry} (hread : e.read t = some (lock, i)) (ht : t.fits c = true)
    (hlock : c.locked = true → lock = true ∧ t.hasMem = true) (rest : List Byte) :
    decodeEntry c total e (t.encode c 0 ++ rest) = .ok (c.closed total rest) i rest := by
  unfold Entry.read at hread
  split at hread
  case h_7 l f =>
    obtain ⟨p, hp, he⟩ := Option.map_eq_some_iff.1 hread
    cases he
    have hl : ¬(c.locked && !l) = true := fun h => by
      obtain ⟨hc, hno⟩ := Bool.and_eq_true_iff.1 h
      simp_all
    rw [decodeEntry, if_neg hl]
    exact decodeModRM_read hp ht (fun hc => ⟨(Bool.and_eq_true_iff.1 (hlock hc).1).2, (hlock hc).2⟩) rest
  case h_8 f => exact decodeModRM_read hread ht hlock rest
  case h_9 => cases hread
  all_goals
    cases hread
    have hc : ¬c.locked = true := fun hc => nomatch (hlock hc).1
    rw [decodeEntry, if_neg hc]
  case h_1 => rfl
  all_goals apply Taken.finish_eq_ok.2
  case h_2 v => exact ⟨v, rfl, rfl, rfl⟩
  case h_3 v => exact ⟨v, take16_eq_some.2 rfl, rfl, rfl⟩
  case h_4 v => exact ⟨v, takeSized_eq_some.2 ⟨rfl, sizedFits_iff.1 ht⟩, rfl, rfl⟩
  case h_5 v => exact ⟨v, takeSized_eq_some.2 ⟨rfl, sizedFits_iff.1 ht⟩, rfl, rfl⟩
  case h_6 off sel => exact ⟨(off, sel), takeFar_eq_some.2 ⟨rfl, sizedFits_iff.1 ht⟩, rfl, rfl⟩

end

/-- At an opcode whose entry reads an instruction the decoder goes on with this entry. -/
theorem decodeFrom_entryAt {pe big : Bool} {total : Nat} {seen : List Pfx} {op : List Byte} {t : Tail}
    {p : Bool × Instr} (hread : (entryAt pe op).read t = some p) (bs : List Byte) :
    decodeFrom pe big total seen (op ++ bs) = decodeEntry ⟨seen, big, 0⟩ total (entryAt pe op) bs := by
  unfold entryAt at hread ⊢
  split at hread
  · refine decodeFrom_opcode1 seen (fun q hq => ?_) (fun hesc => ?_) bs
    · rw [hq] at hread; cases hread
    · rw [hesc] at hread; cases hread
  · split at hread
    · next h => subst h; rfl
    · cases hread
  · cases hread

theorem Instr.not_needsPE {i : Instr}
    (h : ∀ rm, i ≠ .sldtRm16 rm ∧ i ≠ .strRm16 rm ∧ i ≠ .lldtRm16 rm ∧ i ≠ .ltrRm16 rm) : i.needsPE = false := by
  unfold needsPE
  split
  case h_1 rm => obtain ⟨hsldt, -⟩ := h rm; exact absurd rfl hsldt
  case h_2 rm => obtain ⟨-, hstr, -⟩ := h rm; exact absurd rfl hstr
  case h_3 rm => obtain ⟨-, -, hlldt, -⟩ := h rm; exact absurd rfl hlldt
  case h_4 rm => obtain ⟨-, -, -, hltr⟩ := h rm; exact absurd rfl hltr
  case h_5 => rfl

/-- Settles O22: the prefixes are gathered, the entry at the instruction's opcode is its own row, and the row reads back the
operands. -/
theorem encodeThenDecode : Obligations.EncodeThenDecode := by
  unfold Obligations.EncodeThenDecode
  intro pe c i rest hwf hreal
  simp only [Instr.wf, Instr.lengthOk, Instr.operandsOk, Instr.lockOk, Bool.and_eq_true, beq_iff_eq] at hwf
  obtain ⟨⟨⟨hlen, -⟩, hfits⟩, hlock⟩ := hwf
  have hpe : i.needsPE = true → pe = true := fun hi => by
    cases pe with
    | false => rw [Instr.not_needsPE (hreal rfl)] at hi; cases hi
    | true => rfl
  have hread := entryAt_reads hpe hfits
  have hbytes : i.encode c ++ rest =
      c.pfx.map Pfx.byte ++ (i.opcode.1 ++ ((i.form.tail.raw i.opcode.2).encode ⟨c.pfx, c.big, 0⟩ 0 ++ rest)) := by
    rw [Tail.encode_raw, Instr.encode, List.append_assoc, List.append_assoc]; rfl
  have htakesLock : c.locked = true → i.form.lockable = true ∧ (i.form.tail.raw i.opcode.2).hasMem = true := fun hc => by
    rw [Tail.hasMem_raw]
    simpa [hc] using hlock
  have hfrom : ∀ total, decodeFrom pe c.big total [] (i.encode c ++ rest) =
      .ok (Ctx.closed ⟨c.pfx, c.big, 0⟩ total rest) i rest := fun total => by
    rw [hbytes, decodeFrom_prefixes, decodeFrom_entryAt hread]
    exact decodeEntry_read hread (Tail.fits_raw hfits) htakesLock rest
  have hclosed : Ctx.closed ⟨c.pfx, c.big, 0⟩ (i.encode c ++ rest).length rest = c := by
    rw [Ctx.closed, List.length_append, Nat.add_sub_cancel, i.encode_length, ← hlen]
  rw [decode, hfrom, hclosed]

end Sys2Proof
end

section
/-! PROOF. What the decoder rejects (30_encoding R200 to R202, R210 to R212): empty slots of the opcode maps and groups, and
forms outside a row. Which slots these are is a finite fact about the maps, decided byte by byte. -/

namespace Sys2Proof

/-- The opcode maps leave the slot empty. -/
def Entry.empty : Entry → Bool
  | .none => true
  | _ => false

/-- Why a row refuses a ModRM byte with this mod field, before it reads any later byte or LOCK. -/
def ModRow.refusal (md : BitVec 2) : ModRow → Option Reject
  | .none why => some why
  | .mem _ => if md = 3 then some .invalidForm else Option.none
  | _ => Option.none

/-- Why an entry refuses a ModRM byte with these mod and reg fields, whatever its rm field and the bytes after it. -/
def Entry.refusal (locked : Bool) (md : BitVec 2) (g : BitVec 3) : Entry → Option Reject
  | .group f => (f g).refusal md
  | .modrm lock f => if locked && !lock then some .lockNotTaken else (f g).refusal md
  | _ => Option.none

theorem Entry.eq_none_of_empty {e : Entry} (h : e.empty = true) : e = .none := by
  unfold empty at h
  split at h
  · rfl
  · cases h

section
variable {c : Ctx} {total : Nat} {md : BitVec 2} {g rm : BitVec 3} {why : Reject}

theorem decodeModRow_refusal {row : ModRow} (h : row.refusal md = some why) (bs : List Byte) :
    decodeModRow c total md rm row bs = .reject why := by
  unfold ModRow.refusal at h
  split at h
  · cases h; rfl
  · split at h
    · next hmd => cases h; rw [decodeModRow, if_pos hmd]
    · cases h
  · cases h

theorem decodeEntry_refusal {e : Entry} (h : e.refusal c.locked md g = some why) (bs : List Byte) :
    decodeEntry c total e ((md ++ g ++ rm) :: bs) = .reject why := by
  have hrow : ∀ f : BitVec 3 → ModRow, (f g).refusal md = some why →
      decodeModRM c total f (threeFields md g rm :: bs) = .reject why := fun f hf => by
    rw [decodeModRM, threeFields_hi, threeFields_mid, threeFields_lo, decodeModRow_refusal hf]
  unfold Entry.refusal at h
  split at h
  · exact hrow _ h
  · rw [decodeEntry]
    split at h
    · next hl => cases h; rw [if_pos hl]
    · next hl => rw [if_neg hl]; exact hrow _ h
  · cases h

end

/-! ### Rejection after any prefixes -/

section
variable {pe big : Bool} {b : Byte}

theorem decode_prefixes (ps : List Pfx) (bs : List Byte) : decode pe big (ps.map Pfx.byte ++ bs) =
    decodeFrom pe big (ps.map Pfx.byte ++ bs).length ps bs := by
  rw [decode, decodeFrom_prefixes, List.nil_append]

theorem decode_empty1 (ps : List Pfx) (bs : List Byte) (h : (opcode1 b).empty = true) :
    decode pe big (ps.map Pfx.byte ++ b :: bs) = .reject .noRow := by
  have hb := Entry.eq_none_of_empty h
  rw [decode_prefixes, decodeFrom_opcode1 ps (by simp [hb]) (by simp [hb]), hb]
  rfl

theorem decode_empty2 (ps : List Pfx) (bs : List Byte) (h : (opcode2 pe b).empty = true) :
    decode pe big (ps.map Pfx.byte ++ 0x0F :: b :: bs) = .reject .noRow := by
  rw [decode_prefixes, decodeFrom_opcode2, Entry.eq_none_of_empty h]
  rfl

variable {ps : List Pfx} (bs : List Byte) {locked : Bool} {md : BitVec 2} {g rm : BitVec 3} {why : Reject}
  (hps : ps.contains .lock = locked)
include hps

theorem decode_refusal1 (h : (opcode1 b).refusal locked md g = some why) :
    decode pe big (ps.map Pfx.byte ++ b :: (md ++ g ++ rm) :: bs) = .reject why := by
  subst hps
  rw [decode_prefixes, decodeFrom_opcode1 ps]
  · exact decodeEntry_refusal (c := ⟨ps, big, 0⟩) h bs
  · intro p hp; rw [hp] at h; cases h
  · intro hesc; rw [hesc] at h; cases h

theorem decode_refusal2 (h : (opcode2 pe b).refusal locked md g = some why) :
    decode pe big (ps.map Pfx.byte ++ 0x0F :: b :: (md ++ g ++ rm) :: bs) = .reject why := by
  subst hps
  rw [decode_prefixes, decodeFrom_opcode2]
  exact decodeEntry_refusal (c := ⟨ps, big, 0⟩) h bs

end

/-! ### The empty slots of the maps and groups (30_encoding R201, R202) -/

theorem opcode1_empty : ∀ b ∈ [0x27, 0x2F, 0x37, 0x3F, 0x62, 0x63, 0x82, 0x9B, 0xC8, 0xD4, 0xD5, 0xD6, 0xD8, 0xD9, 0xDA,
    0xDB, 0xDC, 0xDD, 0xDE, 0xDF, 0xF1], (opcode1 b).empty = true := by
  decide

theorem opcode2_empty (pe : Bool) : ∀ b : Byte, b ∉ [0x00, 0x01, 0x06, 0x20, 0x21, 0x22, 0x23, 0xA0, 0xA1, 0xA4, 0xA5, 0xA8,
    0xA9, 0xAC, 0xAD, 0xAF, 0xB2, 0xB4, 0xB5, 0xB6, 0xB7, 0xBE, 0xBF] → b.extractLsb' 4 4 ≠ 8 → b.extractLsb' 4 4 ≠ 9 →
    (opcode2 pe b).empty = true := by
  revert pe; decide

theorem opcode1_emptySlots (locked : Bool) (md : BitVec 2) : ∀ p ∈ [(0x8F, [1, 2, 3, 4, 5, 6, 7]), (0xC0, [6]), (0xC1, [6]),
    (0xC6, [1, 2, 3, 4, 5, 6, 7]), (0xC7, [1, 2, 3, 4, 5, 6, 7]), (0xD0, [6]), (0xD1, [6]), (0xD2, [6]), (0xD3, [6]),
    (0xF6, [1]), (0xF7, [1]), (0xFE, [2, 3, 4, 5, 6, 7]), (0xFF, [7])],
    ∀ g ∈ p.2, (opcode1 p.1).refusal locked md g = some .noRow := by
  revert locked md; decide

theorem opcode2_emptySlots (pe locked : Bool) (md : BitVec 2) : ∀ p ∈ [(0x00, [4, 5, 6, 7]), (0x01, [5, 7])],
    ∀ g ∈ p.2, (opcode2 pe p.1).refusal locked md g = some .noRow := by
  revert pe locked md; decide

/-! ### Forms outside a row (30_encoding R202, R204, R205, R211) -/

theorem opcode1_memoryOnly :
    ∀ b ∈ [0x8D, 0xC4, 0xC5], ∀ g, (opcode1 b).refusal false 3 g = some .invalidForm := by
  decide

theorem groupFF_memoryOnly : ∀ g, g = 3 ∨ g = 5 → (opcode1 0xFF).refusal false 3 g = some .invalidForm := by
  decide

theorem opcode2_memoryOnly (pe : Bool) :
    ∀ b ∈ [0xB2, 0xB4, 0xB5], ∀ g, (opcode2 pe b).refusal false 3 g = some .invalidForm := by
  revert pe; decide

theorem group0F01_memoryOnly (pe : Bool) :
    ∀ g ∈ [0, 1, 2, 3], (opcode2 pe 0x01).refusal false 3 g = some .invalidForm := by
  revert pe; decide

theorem group0F00_realMode (md : BitVec 2) :
    ∀ g ∈ [0, 1, 2, 3], (opcode2 false 0x00).refusal false md g = some .realModeRow := by
  revert md; decide

theorem opcode1_noSegmentRegister (md : BitVec 2) :
    (∀ g ∈ [6, 7], (opcode1 0x8C).refusal false md g = some .invalidForm) ∧
      ∀ g ∈ [1, 6, 7], (opcode1 0x8E).refusal false md g = some .invalidForm := by
  revert md; decide

theorem opcode2_noControlRegister (pe : Bool) (md : BitVec 2) :
    ∀ b ∈ [0x20, 0x22], ∀ g ∈ [1, 4, 5, 6, 7], (opcode2 pe b).refusal false md g = some .invalidForm := by
  revert pe md; decide

theorem opcode2_noDebugRegister (pe : Bool) (md : BitVec 2) :
    ∀ b ∈ [0x21, 0x23], ∀ g ∈ [4, 5], (opcode2 pe b).refusal false md g = some .invalidForm := by
  revert pe md; decide

/-- Settles O25: after any prefixes the decoder stands at the entry of the opcode, and that entry is empty or refuses the
ModRM byte. -/
theorem emptySlotsAndInvalidFormsAreRejected : Obligations.EmptySlotsAndInvalidFormsAreRejected := by
  unfold Obligations.EmptySlotsAndInvalidFormsAreRejected
  intro pe big ps rest md g rm
  refine ⟨fun b hb => ?_, fun b hb h8 h9 => ?_, fun b gs hb hg => ?_, fun hg => ?_, fun hg => ?_, fun hlock => ?_⟩
  · exact decode_empty1 ps rest (opcode1_empty b hb)
  · exact decode_empty2 ps rest (opcode2_empty pe b hb h8 h9)
  · exact decode_refusal1 rest rfl (opcode1_emptySlots _ md _ hb g hg)
  · exact decode_refusal2 rest rfl (opcode2_emptySlots pe _ md (0x00, _) (by decide) g hg)
  · exact decode_refusal2 rest rfl (opcode2_emptySlots pe _ md (0x01, _) (by decide) g hg)
  have hps : ps.contains .lock = false := by simpa using hlock
  refine ⟨fun b hb => ?_, fun hg => ?_, fun b hb => ?_, fun hg => ⟨?_, ?_⟩, fun hg => ?_, fun hg => ?_, fun b hb hg => ?_,
    fun b hb hg => ?_⟩
  · exact decode_refusal1 rest hps (opcode1_memoryOnly b hb g)
  · exact decode_refusal1 rest hps (groupFF_memoryOnly g hg)
  · exact decode_refusal2 rest hps (opcode2_memoryOnly pe b hb g)
  · exact decode_refusal2 rest hps (group0F01_memoryOnly pe g hg)
  · exact decode_refusal2 rest hps (group0F00_realMode md g hg)
  · exact decode_refusal1 rest hps ((opcode1_noSegmentRegister md).1 g hg)
  · exact decode_refusal1 rest hps ((opcode1_noSegmentRegister md).2 g hg)
  · exact decode_refusal2 rest hps (opcode2_noControlRegister pe md b hb g hg)
  · exact decode_refusal2 rest hps (opcode2_noDebugRegister pe md b hb g hg)

end Sys2Proof
end

section
/-! PROOF. Words of the encoding tables, and the condition codes with the opcodes that hold them (30_encoding R203). -/

namespace Sys2Proof

/-- Settles O24: each word is decoded as written. -/
theorem wordsDecode : Obligations.WordsDecode := by
  unfold Obligations.WordsDecode
  exact ⟨rfl, rfl, rfl, rfl, rfl, rfl, rfl⟩

section
variable (cc : BitVec 4)

theorem opcode1_jcc : opcode1 ((7 : BitVec 4) ++ cc) = .ib fun rel => .jccRel8 (Cond.ofBits cc) rel := by
  unfold opcode1
  rw [highNibble_append, lowNibble_append]
  rfl

theorem opcode2_jcc (pe : Bool) :
    opcode2 pe ((8 : BitVec 4) ++ cc) = .iz fun rel => .jccRelz (Cond.ofBits cc) rel := by
  unfold opcode2
  rw [highNibble_append, lowNibble_append]
  rfl

theorem opcode2_setcc (pe : Bool) :
    opcode2 pe ((9 : BitVec 4) ++ cc) = .modrm false fun g => .rm false fun rm => .setccRm8 (Cond.ofBits cc) g rm := by
  unfold opcode2
  rw [highNibble_append, lowNibble_append]
  rfl

end

/-- Settles O49: the low four bits of the three opcodes are the condition code, and each code names its condition. -/
theorem conditionTable : Obligations.ConditionTable := by
  unfold Obligations.ConditionTable
  refine ⟨fun pe big cc ig rm r0 r1 r2 r3 => ⟨?_, ?_, ?_, ?_⟩, ?_⟩
  · rw [decode, decodeFrom_opcode1 [] (by rw [opcode1_jcc]; nofun) (by rw [opcode1_jcc]; nofun), opcode1_jcc]
    rfl
  · rw [decode, decodeFrom_opcode2, opcode2_jcc]
    rfl
  · rw [decode, decodeFrom_opcode2, opcode2_jcc]
    rfl
  · rw [decode, decodeFrom_opcode2, opcode2_setcc]
    change decodeEntry _ _ _ [threeFields 3 ig rm] = _
    rw [decodeEntry, if_neg (by nofun), decodeModRM, threeFields_hi, threeFields_mid, threeFields_lo]
    rfl
  · rintro fl _ _ _ _ _ rfl rfl rfl rfl rfl
    exact ⟨rfl, rfl, rfl, rfl, rfl, rfl, rfl, rfl, rfl, rfl, rfl, rfl, rfl, rfl, rfl, rfl⟩

end Sys2Proof
end

section
/-! PROOF. Effective addresses (30_encoding R165, R173 to R176). -/

namespace Sys2Proof.Machine

/-! ### Segment overrides (30_encoding R165) -/

theorem segOverride_append (ps qs : List Pfx) (acc : Option SReg) :
    segOverride (ps ++ qs) acc = segOverride qs (segOverride ps acc) := by
  induction ps generalizing acc with
  | nil => rfl
  | cons p ps ih => cases p <;> exact ih _

theorem segOverride_of_no_seg {ps : List Pfx} (h : ∀ g, Pfx.seg g ∉ ps) (acc : Option SReg) :
    segOverride ps acc = acc := by
  induction ps with
  | nil => rfl
  | cons p ps ih =>
    have hps := ih fun g hg => h g (List.mem_cons_of_mem p hg)
    cases p with
    | seg g => exact absurd List.mem_cons_self (h g)
    | opSize | addrSize | lock | repne | rep => exact hps

/-! ### Offsets (30_encoding R173 to R175) -/

/-- The registers that a 16-bit address adds. -/
def base16Regs : Base16 → List Reg
  | .bxSi => [.ebx, .esi]
  | .bxDi => [.ebx, .edi]
  | .bpSi => [.ebp, .esi]
  | .bpDi => [.ebp, .edi]
  | .si => [.esi]
  | .di => [.edi]
  | .bp => [.ebp]
  | .bx => [.ebx]

/-- The register part of a 16-bit address is their sum modulo 2^16. -/
theorem base16_toNat (s : State) (b : Base16) :
    (base16 s b).toNat = ((base16Regs b).map fun r => (s.regs.get r).toNat).sum % 65536 := by
  cases b <;> simp [base16, base16Regs, State.view, State.reg]

theorem memLoc_ind16 (s : State) (b : Base16) (d : Disp16) :
    memLoc s (.ind16 b d) = (segmentOr s.ctx (base16Segment b), BitVec.ofNat 32
      ((((base16Regs b).map fun r => (s.regs.get r).toNat).sum + (disp16 d).toNat) % 65536)) := by
  refine Prod.ext rfl (BitVec.eq_of_toNat_eq ?_)
  simp [memLoc, effectiveOffset, base16_toNat]

theorem scaledIndex_eq (s : State) (sc : BitVec 2) (ix : Reg) :
    scaledIndex s sc ix = if ix = .esp then 0 else s.regs.get ix * BitVec.ofNat 32 (2 ^ sc.toNat) := by
  unfold scaledIndex
  split
  · rfl
  · refine BitVec.eq_of_toNat_eq ?_
    simp [State.reg, Nat.shiftLeft_eq]

/-- The register parts of 16-bit addresses with their default segments (30_encoding R173). -/
theorem base16_forms : ∀ p ∈ [(Base16.bxSi, [Reg.ebx, .esi], SReg.ds), (.bxDi, [.ebx, .edi], .ds),
    (.bpSi, [.ebp, .esi], .ss), (.bpDi, [.ebp, .edi], .ss), (.si, [.esi], .ds), (.di, [.edi], .ds), (.bp, [.ebp], .ss),
    (.bx, [.ebx], .ds)], p.2.1 = base16Regs p.1 ∧ p.2.2 = base16Segment p.1 := by
  decide

/-- Settles O47: each form adds its parts, and the last segment override replaces the default segment. -/
theorem effectiveAddresses : Obligations.EffectiveAddresses := by
  unfold Obligations.EffectiveAddresses
  intro s
  refine ⟨?_, fun v => ?_, fun v => rfl, ?_, fun sc ix v => ?_, ?_, fun dflt h => ?_⟩
  · rintro b regs g hb n rfl
    obtain ⟨hregs, hg⟩ : regs = base16Regs b ∧ g = base16Segment b := base16_forms _ hb
    subst hregs hg
    exact ⟨memLoc_ind16 s b .none, fun v => memLoc_ind16 s b (.d8 v), fun v => memLoc_ind16 s b (.d16 v)⟩
  · simp [memLoc, effectiveOffset, defaultSegment]
  · rintro b g rfl d v hd
    obtain rfl : disp32 d = v := by
      obtain ⟨rfl, rfl⟩ | ⟨x, rfl, rfl⟩ | rfl := hd <;> rfl
    exact ⟨rfl, fun sc ix => by rw [← scaledIndex_eq]; rfl⟩
  · rw [← scaledIndex_eq]; rfl
  · intro ps g qs dflt hpfx hqs
    rw [segmentOr, hpfx, segOverride_append, segOverride, segOverride_of_no_seg hqs, Option.getD_some]
  · rw [segmentOr, segOverride_of_no_seg h, Option.getD_none]

end Sys2Proof.Machine
end

section
/-! PROOF. Instruction fetch (30_encoding R160 to R162): the byte that a fetch reads, what stops one, and the bytes up to the
stop. -/

namespace Sys2Proof.Machine

section
variable {s : State} {off : Word}

/-- A fetch is permitted where a read is (20_memory R133). -/
theorem physAll_fetch (s : State) (user : Bool) (as : List Word) : s.physAll .fetch user as = s.physAll .read user as := by
  induction as with
  | nil => rfl
  | cons a as ih =>
    have hphys : s.phys .fetch user a = s.phys .read user a := rfl
    rw [State.physAll, State.physAll, ih, hphys]

theorem linRead_fetch_run (hw : s.plainWalks = true) {user : Bool} {lin : Word} {n : Nat}
    (h : s.backed .fetch user lin n = true) : linRead .fetch user lin n s = .ok (s.valueAt user lin n, s) := by
  obtain ⟨ps, hps, hram⟩ := State.backed_some h
  have hvalue : s.valueAt user lin n = s.numberOf ps := by rw [State.valueAt, ← physAll_fetch, hps]
  simp only [linRead, bind_run, translates_run hw hps, physReads_run hram, pure_run, hvalue, State.numberOf]

/-- A fetch checks the limit and no rights (20_memory R102, R103; log 22). -/
theorem checkSegment_fetch (hin : s.segs.cs.inBounds off 1 = true) : checkSegment .cs off 1 .fetch s = .ok ((), s) := by
  rw [checkSegment_inBounds (r := .cs) .fetch hin]
  split <;> rfl

theorem fetchByte_inBounds (hin : s.segs.cs.inBounds off 1 = true) :
    fetchByte off s = (linRead .fetch s.user (s.linear .cs off) 1 >>= fun v => pure (BitVec.ofNat 8 v)) s := by
  rw [fetchByte, bind_run, checkSegment_fetch hin]
  rfl

theorem fetchByte_run (hw : s.plainWalks = true) (hin : s.segs.cs.inBounds off 1 = true)
    (h : s.backed .fetch s.user (s.linear .cs off) 1 = true) :
    fetchByte off s = .ok (BitVec.ofNat 8 (s.valueAt s.user (s.linear .cs off) 1), s) := by
  rw [fetchByte_inBounds hin, bind_run, linRead_fetch_run hw h]
  rfl

theorem fetchByte_outOfBounds (hout : s.segs.cs.inBounds off 1 = false) : fetchByte off s = .error (protection 0) := by
  rw [fetchByte, bind_run, checkSegment_outOfBounds (r := .cs) .fetch hout]
  rfl

theorem fetchByte_blocked (hw : s.plainWalks = true) (hin : s.segs.cs.inBounds off 1 = true)
    (hp : s.phys .fetch s.user (s.linear .cs off) = none) :
    fetchByte off s = .error (s.walkStop .fetch s.user (s.linear .cs off)) := by
  have hstop := translates_blocked (n := 1) (k := 0) hw Nat.one_pos (by simp) (by rwa [BitVec.add_zero])
  rw [BitVec.add_zero] at hstop
  rw [fetchByte_inBounds hin, bind_run, linRead_error hstop]

theorem fetchByte_outOfRange (hw : s.plainWalks = true) (hin : s.segs.cs.inBounds off 1 = true) {p : Word}
    (hp : s.phys .fetch s.user (s.linear .cs off) = some p) (hout : s.params.memSize ≤ p.toNat) :
    fetchByte off s = .error (.fatal .physicalOutOfRange) := by
  have hps : s.physAll .fetch s.user (addrs (s.linear .cs off) 1) = some [p] := by
    simp [addrs, State.physAll, hp]
  have hram : s.inRam [p] = false := by simpa [State.inRam] using hout
  rw [fetchByte_inBounds hin, bind_run, linRead_outOfRange hw hps hram]

/-! ### The bytes up to a stop -/

theorem fetchAvail_error {n : Nat} {e : Stop} (hn : 0 < n) (h : fetchByte off s = .error e) :
    fetchAvail n off s = ([], e) := by
  obtain ⟨n, rfl⟩ := Nat.exists_eq_succ_of_ne_zero hn.ne'
  rw [fetchAvail, h]

/-- Bytes that are fetched and leave the state as it is stand in front of what is fetched after them. -/
theorem fetchAvail_append {k : Nat} {b : Nat → Byte} (n : Nat)
    (h : ∀ j < k, fetchByte (off + BitVec.ofNat 32 j) s = .ok (b j, s)) :
    fetchAvail (k + n) off s =
      ((List.range k).map b ++ (fetchAvail n (off + BitVec.ofNat 32 k) s).1,
        (fetchAvail n (off + BitVec.ofNat 32 k) s).2) := by
  induction k generalizing off b with
  | zero => simp
  | succ k ih =>
    have h0 := h 0 (Nat.succ_pos k)
    rw [BitVec.add_zero] at h0
    have hrest := ih (off := off + 1) (b := fun j => b (j + 1)) fun j hj => by
      rw [add_one_add_ofNat]; exact h (j + 1) (Nat.succ_lt_succ hj)
    rw [add_one_add_ofNat] at hrest
    rw [Nat.succ_add, fetchAvail, h0, List.range_succ_eq_map]
    simp only [hrest, List.map_cons, List.map_map, List.cons_append]
    rfl

theorem fetchAvail_stop {k n : Nat} {b : Nat → Byte} {e : Stop} (hn : 0 < n)
    (h : ∀ j < k, fetchByte (off + BitVec.ofNat 32 j) s = .ok (b j, s))
    (he : fetchByte (off + BitVec.ofNat 32 k) s = .error e) :
    (fetchAvail (k + n) off s).1.length = k ∧ (fetchAvail (k + n) off s).2 = e := by
  rw [fetchAvail_append n h, fetchAvail_error hn he]
  simp

end

/-- Settles O26: the bytes whose checks pass are read in order, and the next byte stops the fetch in its own way. -/
theorem fetchReadsCode : Obligations.FetchReadsCode := by
  unfold Obligations.FetchReadsCode
  intro s k hw hk hpass
  obtain ⟨n, hn⟩ := Nat.exists_eq_add_of_le hk
  have hfetched : s.fetched = fetchAvail (k + n) s.eip s := by rw [← hn]; rfl
  have hbytes := fun j hj => fetchByte_run hw (hpass j hj).1 (hpass j hj).2
  rw [hfetched]
  refine ⟨fun j hj => ?_, ?_, ?_⟩
  · rw [fetchAvail_append n hbytes, List.getElem?_append_left (by simpa using hj)]
    simp [hj]
  · rintro rfl
    obtain rfl : n = 0 := by omega
    rw [fetchAvail_append 0 hbytes]
    exact ⟨by simp [fetchAvail], rfl⟩
  · rintro off lin hlt rfl rfl
    have hn0 : 0 < n := by omega
    exact ⟨fun hout => fetchAvail_stop hn0 hbytes (fetchByte_outOfBounds hout),
      fun hin hp => fetchAvail_stop hn0 hbytes (fetchByte_blocked hw hin hp),
      fun p hin hp hout => fetchAvail_stop hn0 hbytes (fetchByte_outOfRange hw hin hp hout)⟩

end Sys2Proof.Machine
end

section
/-! PROOF. The forms of ADD, ADC, SUB, SBB and CMP (40_arithmetic R233 to R238): each mnemonic is one operation in nine operand
shapes, so a fact about the shapes is a fact about every form. -/

namespace Sys2Proof.Machine

/-- The nine forms of an instruction are the shapes that write the result of one operation (40_arithmetic R233). -/
structure NineForms.Does (f : NineForms) (op : BinOp) : Prop where
  rm8R8 : ∀ rm r s, exec (f.rm8R8 rm r) s = seqInstr (rmFromReg op .b8 rm r) s
  rmvRv : ∀ rm r s, exec (f.rmvRv rm r) s = seqInstr (rmFromReg op s.ctx.osz rm r) s
  r8Rm8 : ∀ r rm s, exec (f.r8Rm8 r rm) s = seqInstr (regFromRM op .b8 r rm) s
  rvRmv : ∀ r rm s, exec (f.rvRmv r rm) s = seqInstr (regFromRM op s.ctx.osz r rm) s
  alIb : ∀ ib s, exec (f.alIb ib) s = seqInstr (regFromImm op .b8 .eax ib) s
  eaxIz : ∀ iz s, exec (f.eaxIz iz) s = seqInstr (regFromImm op s.ctx.osz .eax (immIz s.ctx.osz iz)) s
  rm8Ib : ∀ rm ib s, exec (f.rm8Ib rm ib) s = seqInstr (rmFromImm op .b8 rm ib) s
  rmvIz : ∀ rm iz s, exec (f.rmvIz rm iz) s = seqInstr (rmFromImm op s.ctx.osz rm (immIz s.ctx.osz iz)) s
  rmvIbs : ∀ rm ib s, exec (f.rmvIbs rm ib) s = seqInstr (rmFromImm op s.ctx.osz rm (immIbs s.ctx.osz ib)) s

/-- The nine forms of an instruction are the shapes that discard the result of one operation (40_arithmetic R238). -/
structure NineForms.Tests (f : NineForms) (op : BinOp) : Prop where
  rm8R8 : ∀ rm r s, exec (f.rm8R8 rm r) s = seqInstr (testRMReg op .b8 rm r) s
  rmvRv : ∀ rm r s, exec (f.rmvRv rm r) s = seqInstr (testRMReg op s.ctx.osz rm r) s
  r8Rm8 : ∀ r rm s, exec (f.r8Rm8 r rm) s = seqInstr (testRegRM op .b8 r rm) s
  rvRmv : ∀ r rm s, exec (f.rvRmv r rm) s = seqInstr (testRegRM op s.ctx.osz r rm) s
  alIb : ∀ ib s, exec (f.alIb ib) s = seqInstr (testRegImm op .b8 .eax ib) s
  eaxIz : ∀ iz s, exec (f.eaxIz iz) s = seqInstr (testRegImm op s.ctx.osz .eax (immIz s.ctx.osz iz)) s
  rm8Ib : ∀ rm ib s, exec (f.rm8Ib rm ib) s = seqInstr (testRMImm op .b8 rm ib) s
  rmvIz : ∀ rm iz s, exec (f.rmvIz rm iz) s = seqInstr (testRMImm op s.ctx.osz rm (immIz s.ctx.osz iz)) s
  rmvIbs : ∀ rm ib s, exec (f.rmvIbs rm ib) s = seqInstr (testRMImm op s.ctx.osz rm (immIbs s.ctx.osz ib)) s

theorem add_does : NineForms.add.Does addOp := by constructor <;> intros <;> rfl

theorem adc_does : NineForms.adc.Does adcOp := by constructor <;> intros <;> rfl

theorem sub_does : NineForms.sub.Does subOp := by constructor <;> intros <;> rfl

theorem sbb_does : NineForms.sbb.Does sbbOp := by constructor <;> intros <;> rfl

theorem and_does : NineForms.and.Does andOp := by constructor <;> intros <;> rfl

theorem or_does : NineForms.or.Does orOp := by constructor <;> intros <;> rfl

theorem xor_does : NineForms.xor.Does xorOp := by constructor <;> intros <;> rfl

theorem cmp_tests : NineForms.cmp.Tests subOp := by constructor <;> intros <;> rfl

variable {f : NineForms} {op : BinOp} {e : Effect}

/-- The forms write the effect that their operation computes (40_arithmetic R233). -/
theorem NineForms.Does.writes (h : f.Does op) (ho : Computes op e) (ha : EffAgree e) : f.Writes e :=
  ⟨fun s rm r hc => (h.rm8R8 rm r s).trans (rmFromReg_run ho ha hc),
    fun s rm r hc => (h.rmvRv rm r s).trans (rmFromReg_run ho ha hc),
    fun s r rm hc => (h.r8Rm8 r rm s).trans (regFromRM_run ho hc),
    fun s r rm hc => (h.rvRmv r rm s).trans (regFromRM_run ho hc),
    fun s ib hc => (h.alIb ib s).trans (regFromImm_run ho hc),
    fun s iz hc => (h.eaxIz iz s).trans (regFromImm_run ho hc),
    fun s rm ib hc => (h.rm8Ib rm ib s).trans (rmFromImm_run ho ha hc),
    fun s rm iz hc => (h.rmvIz rm iz s).trans (rmFromImm_run ho ha hc),
    fun s rm ib hc => (h.rmvIbs rm ib s).trans (rmFromImm_run ho ha hc)⟩

/-- The forms set the flags that their operation computes (40_arithmetic R238). -/
theorem NineForms.Tests.compares (h : f.Tests op) (ho : Computes op e) : f.Compares e :=
  ⟨fun s rm r hc => (h.rm8R8 rm r s).trans (testRMReg_run ho hc),
    fun s rm r hc => (h.rmvRv rm r s).trans (testRMReg_run ho hc),
    fun s r rm hc => (h.r8Rm8 r rm s).trans (testRegRM_run ho hc),
    fun s r rm hc => (h.rvRmv r rm s).trans (testRegRM_run ho hc),
    fun s ib hc => (h.alIb ib s).trans (testRegImm_run ho hc),
    fun s iz hc => (h.eaxIz iz s).trans (testRegImm_run ho hc),
    fun s rm ib hc => (h.rm8Ib rm ib s).trans (testRMImm_run ho hc),
    fun s rm iz hc => (h.rmvIz rm iz s).trans (testRMImm_run ho hc),
    fun s rm ib hc => (h.rmvIbs rm ib s).trans (testRMImm_run ho hc)⟩

/-- Settles O1: each of the five operations computes its effect, and every form is a shape of its operation. -/
theorem arithmeticRuns : Obligations.ArithmeticRuns := by
  unfold Obligations.ArithmeticRuns
  exact ⟨add_does.writes comp_add ea_add, adc_does.writes comp_adc ea_adc, sub_does.writes comp_sub ea_sub,
    sbb_does.writes comp_sbb ea_sbb, cmp_tests.compares comp_sub⟩

end Sys2Proof.Machine
end

section
/-! PROOF. The flags of arithmetic and logic results bit by bit (40_arithmetic R230 to R232, R239, R240; 41_logic_shift R260;
43_stack R346), and what the conditions say after CMP (30_encoding R203). -/

namespace Sys2Proof.Machine

/-! ### A flag after it is set -/

theorem setFlag_eq (f : Flag) (b : Bool) (fl : Word) :
    setFlag f b fl = if b then fl ||| BitVec.twoPow 32 f.pos else fl &&& ~~~BitVec.twoPow 32 f.pos := by
  cases f <;> rfl

theorem Flag.pos_lt (f : Flag) : f.pos < 32 := by
  cases f <;> decide

theorem Flag.pos_inj {f g : Flag} : f.pos = g.pos ↔ f = g := by
  cases f <;> cases g <;> decide

theorem getLsbD_setFlag (f : Flag) (b : Bool) (fl : Word) (k : Nat) :
    (setFlag f b fl).getLsbD k = if k = f.pos then b else fl.getLsbD k := by
  have hpos := f.pos_lt
  rw [setFlag_eq]
  by_cases hk : k = f.pos
  · cases b <;> simp [hk, hpos]
  · have hbit : (BitVec.twoPow 32 f.pos).getLsbD k = false := by simp [Ne.symm hk]
    by_cases hlt : k < 32
    · cases b <;> simp [-BitVec.getLsbD_eq_getElem, -BitVec.getLsbD_twoPow, hbit, hk, hlt]
    · have hge := fun x : Word => BitVec.getLsbD_of_ge x k (Nat.le_of_not_lt hlt)
      rw [hge, hge, if_neg hk]

theorem getFlag_setFlag (f g : Flag) (b : Bool) (fl : Word) :
    getFlag g (setFlag f b fl) = if g = f then b else getFlag g fl := by
  simp only [getFlag, getLsbD_setFlag, Flag.pos_inj]

/-! ### The status flags of a result -/

/-- Bit k of an image fl after the status flags took ZF, SF and PF from a result and CF, AF and OF as given. -/
def statusBit {w : Nat} (fl : Word) (k : Nat) (r : BitVec w) (cf af of : Bool) : Bool :=
  if k = 0 then cf else if k = 2 then decide ((List.range 8).countP (fun i => r.getLsbD i) % 2 = 0)
  else if k = 4 then af else if k = 6 then decide (r = 0) else if k = 7 then r.getLsbD (w - 1)
  else if k = 11 then of else fl.getLsbD k

theorem countOnes_eq_countP {w : Nat} (r : BitVec w) (n : Nat) :
    countOnes r n = (List.range n).countP fun i => r.getLsbD i := by
  induction n with
  | zero => rfl
  | succ n ih =>
    rw [countOnes, ih, List.range_succ, List.countP_append, List.countP_singleton, Nat.add_comm]
    rfl

theorem evenParity_eq {w : Nat} (r : BitVec w) :
    evenParity r = decide ((List.range 8).countP (fun i => r.getLsbD i) % 2 = 0) := by
  rw [evenParity, countOnes_eq_countP]
  rfl

theorem bit_eq_toNat (b : Bool) : bit b = b.toNat := by
  cases b <;> rfl

/-- The flags that keep CF, as INC and DEC do. -/
theorem getLsbD_setStatus {w : Nat} (fl : Word) (k : Nat) (r : BitVec w) (af of : Bool) :
    (setFlag .of of (setFlag .af af (zsp r fl))).getLsbD k = statusBit fl k r (fl.getLsbD 0) af of := by
  simp only [zsp, getLsbD_setFlag, Flag.pos, evenParity_eq, BitVec.msb_eq_getLsbD_last, statusBit]
  grind

theorem getLsbD_setStatus_carry {w : Nat} (fl : Word) (k : Nat) (r : BitVec w) (cf af of : Bool) :
    (setFlag .cf cf (setFlag .of of (setFlag .af af (zsp r fl)))).getLsbD k = statusBit fl k r cf af of := by
  rw [getLsbD_setFlag, getLsbD_setStatus, Flag.pos]
  unfold statusBit
  split <;> rfl

section
variable {w : Nat} (a b : BitVec w) (c : Bool) (fl u : Word) (k : Nat)

theorem getLsbD_addFlags : (addFlags a b c fl).getLsbD k =
    statusBit fl k (addResult a b c) (decide (2 ^ w ≤ a.toNat + b.toNat + bit c))
      (decide (15 < nibble a + nibble b + bit c)) (a.msb == b.msb && (addResult a b c).msb != a.msb) :=
  getLsbD_setStatus_carry _ _ _ _ _ _

theorem getLsbD_subFlags : (subFlags a b c fl).getLsbD k =
    statusBit fl k (subResult a b c) (decide (a.toNat < b.toNat + bit c))
      (decide (nibble a < nibble b + bit c)) (a.msb != b.msb && (subResult a b c).msb != a.msb) :=
  getLsbD_setStatus_carry _ _ _ _ _ _

theorem getLsbD_incFlags : (incFlags a fl).getLsbD k =
    statusBit fl k (a + 1) (fl.getLsbD 0) (nibble a == 15) (a.toNat == 2 ^ (w - 1) - 1) :=
  getLsbD_setStatus _ _ _ _ _

theorem getLsbD_decFlags : (decFlags a fl).getLsbD k =
    statusBit fl k (a - 1) (fl.getLsbD 0) (nibble a == 0) (a.toNat == 2 ^ (w - 1)) :=
  getLsbD_setStatus _ _ _ _ _

theorem getLsbD_logicFlags : (logicFlags u a fl).getLsbD k = statusBit fl k a false (u.getLsbD 4) false :=
  getLsbD_setStatus_carry _ _ _ _ _ _

end

/-! ### The flags that POPF and IRET write (43_stack R346) -/

/-- IOPL is in the mask at level 0 only, IF with I/O privilege only, the other flags with a function always. -/
theorem getLsbD_popMask (priv0 ioPriv : Bool) : ∀ k < 32, (popMask priv0 ioPriv).getLsbD k =
    (decide (k ∈ [0, 2, 4, 6, 7, 8, 10, 11, 14]) || (k == 9 && ioPriv) || ((k == 12 || k == 13) && priv0)) := by
  cases priv0 <;> cases ioPriv <;> decide

theorem getLsbD_maskedFlags (mask old new : Word) {k : Nat} (hk : k < 32) : (maskedFlags mask old new).getLsbD k =
    (decide (k = 1) || if mask.getLsbD k then new.getLsbD k else old.getLsbD k) := by
  have hfixed : ∀ k < 32, (0x00000002 : Word).getLsbD k = decide (k = 1) := by decide
  simp only [maskedFlags, BitVec.getLsbD_or, BitVec.getLsbD_and, BitVec.getLsbD_not, hk, hfixed k hk]
  cases mask.getLsbD k <;> simp [Bool.or_comm]

/-- Settles O50: every flag image is a chain of single flag writes, and the mask of POPF and IRET is known bit by bit. -/
theorem flagComputations : Obligations.FlagComputations := by
  unfold Obligations.FlagComputations
  intro w a b c fl u k status low
  refine ⟨?_, ?_, ?_, ?_, getLsbD_logicFlags a fl u k, fun priv0 ioPriv new hk => ?_⟩
  · rintro r rfl
    rw [getLsbD_addFlags, BitVec.msb_eq_getLsbD_last, BitVec.msb_eq_getLsbD_last, BitVec.msb_eq_getLsbD_last, addResult,
      bit_eq_toNat]
    rfl
  · rintro r rfl
    rw [getLsbD_subFlags, BitVec.msb_eq_getLsbD_last, BitVec.msb_eq_getLsbD_last, BitVec.msb_eq_getLsbD_last, subResult,
      bit_eq_toNat]
    rfl
  · exact getLsbD_incFlags a fl k
  · exact getLsbD_decFlags a fl k
  · rw [getLsbD_maskedFlags _ _ _ hk, getLsbD_popMask priv0 ioPriv k hk]
    grind

/-! ### The conditions after CMP (30_encoding R203) -/

section
variable {w : Nat} (a b : BitVec w) (fl : Word)

theorem subResult_false : subResult a b false = a - b := by
  simp [subResult, bit]

theorem subFlags_cf : getFlag .cf (subFlags a b false fl) = decide (a.toNat < b.toNat) := by
  simp [subFlags, getFlag_setFlag, bit]

theorem subFlags_zf : getFlag .zf (subFlags a b false fl) = decide (a = b) := by
  have hzero : a - b = 0#w ↔ a = b := sub_eq_zero
  simp [subFlags, zsp, getFlag_setFlag, subResult_false, hzero, beq_eq_decide]

theorem subFlags_sf : getFlag .sf (subFlags a b false fl) = (a - b).msb := by
  simp [subFlags, zsp, getFlag_setFlag, subResult_false]

/-- OF after a subtraction: the difference of the signed values is no value of the width (40_arithmetic R232). -/
theorem subFlags_of : getFlag .of (subFlags a b false fl) = a.ssubOverflow b := by
  simp only [subFlags, getFlag_setFlag, reduceCtorEq, if_false, if_true, subResult_false, BitVec.ssubOverflow_eq]
  cases a.msb <;> cases b.msb <;> cases (a - b).msb <;> rfl

/-- SF and OF differ exactly when the signed difference is negative: without overflow SF is its sign, with overflow the
inverse. -/
theorem subFlags_sf_ne_of :
    (getFlag .sf (subFlags a b false fl) != getFlag .of (subFlags a b false fl)) = decide (a.toInt < b.toInt) := by
  rw [subFlags_sf, subFlags_of]
  cases ho : a.ssubOverflow b with
  | false =>
    rw [BitVec.msb_eq_toInt, BitVec.toInt_sub_of_not_ssubOverflow (by simp [ho])]
    simp
  | true =>
    have ha := a.le_toInt
    have ha' := a.toInt_lt
    have hb := b.le_toInt
    have hb' := b.toInt_lt
    rw [BitVec.ssubOverflow_eq] at ho
    simp only [BitVec.msb_eq_toInt (x := a), BitVec.msb_eq_toInt (x := b)] at ho
    cases hr : (a - b).msb <;> simp [hr] at ho ⊢ <;> omega

end

/-- Settles O51: CF and ZF order the operands as unsigned numbers, SF, OF and ZF as signed ones. -/
theorem comparisonConditions : Obligations.ComparisonConditions := by
  unfold Obligations.ComparisonConditions
  rintro w a b fl f rfl
  have hcf := subFlags_cf a b fl
  have hzf := subFlags_zf a b fl
  have hlt := subFlags_sf_ne_of a b fl
  have hof := subFlags_of a b fl
  have hge : (getFlag .sf (subFlags a b false fl) == getFlag .of (subFlags a b false fl)) =
      !decide (a.toInt < b.toInt) := by rw [← hlt, bne, Bool.not_not]
  have hnat : a = b ↔ a.toNat = b.toNat := BitVec.toNat_inj.symm
  have hint : a = b ↔ a.toInt = b.toInt := BitVec.toInt_inj.symm
  refine ⟨?_, ?_, ?_, ?_, ?_, ?_, ?_, ?_, ?_, ?_, ?_⟩
  · simp only [condHolds, hcf, decide_eq_true_eq]
  · simp only [condHolds, hcf, Bool.not_eq_true', decide_eq_false_iff_not, Nat.not_lt]
  · simp only [condHolds, hcf, hzf, Bool.or_eq_true, decide_eq_true_eq, hnat]; omega
  · simp only [condHolds, hcf, hzf, Bool.and_eq_true, Bool.not_eq_true', decide_eq_false_iff_not, hnat]; omega
  · simp only [condHolds, hzf, decide_eq_true_eq]
  · simp only [condHolds, hzf, Bool.not_eq_true', decide_eq_false_iff_not, ne_eq]
  · simp only [condHolds, hlt, decide_eq_true_eq]
  · simp only [condHolds, hge, Bool.not_eq_true', decide_eq_false_iff_not, Int.not_lt]
  · simp only [condHolds, hlt, hzf, Bool.or_eq_true, decide_eq_true_eq, hint]; omega
  · simp only [condHolds, hge, hzf, Bool.and_eq_true, Bool.not_eq_true', decide_eq_false_iff_not, hint]; omega
  · simp only [condHolds, hof, BitVec.ssubOverflow, Bool.or_eq_true, decide_eq_true_eq]; omega

end Sys2Proof.Machine
end

section
/-! PROOF. What arithmetic, logic and shift instructions leave alone (00_scope R6): a body changes registers and flags of its
frame, and memory only by the one store to its r/m operand, which comes last. -/

namespace Sys2Proof.Machine

variable {α : Type}

/-! ### Flags functions that change only the flags of a mask -/

/-- A flags function changes no bit outside a mask. -/
def FlagsWithin (mask : Word) (g : Word → Word) : Prop :=
  ∀ fl, g fl &&& ~~~mask = fl &&& ~~~mask

theorem flagsWithin_id (mask : Word) : FlagsWithin mask fun fl => fl := fun _ => rfl

theorem setFlag_within {mask : Word} {f : Flag} (hf : mask.getLsbD f.pos = true) (b : Bool) :
    FlagsWithin mask (setFlag f b) := by
  intro fl
  refine BitVec.eq_of_getLsbD_eq fun k hk => ?_
  simp only [BitVec.getLsbD_and, BitVec.getLsbD_not, getLsbD_setFlag]
  split
  · next h => rw [h, hf]; simp
  · rfl

theorem FlagsWithin.set {mask : Word} {f : Flag} (hf : mask.getLsbD f.pos = true) (b : Word → Bool) {g : Word → Word}
    (hg : FlagsWithin mask g) : FlagsWithin mask fun fl => setFlag f (b fl) (g fl) :=
  fun fl => (setFlag_within hf (b fl) (g fl)).trans (hg fl)

theorem FlagsWithin.zsp {mask : Word} (hm : mask.getLsbD 2 = true ∧ mask.getLsbD 6 = true ∧ mask.getLsbD 7 = true) {w : Nat}
    (r : BitVec w) {g : Word → Word} (hg : FlagsWithin mask g) : FlagsWithin mask fun fl => zsp r (g fl) :=
  have ⟨hpf, hzf, hsf⟩ := hm
  .set hzf _ (.set hsf _ (.set hpf _ hg))

/-- INC and DEC keep CF (40_arithmetic R239, R240). -/
theorem incFlags_within {w : Nat} (a : BitVec w) : FlagsWithin 0x8D4 (incFlags a) :=
  .set (by decide) _ (.set (by decide) _ (.zsp (by decide) _ (flagsWithin_id _)))

theorem decFlags_within {w : Nat} (a : BitVec w) : FlagsWithin 0x8D4 (decFlags a) :=
  .set (by decide) _ (.set (by decide) _ (.zsp (by decide) _ (flagsWithin_id _)))

/-- A function that sets status flags only changes no other flag (10_state R38). -/
theorem StatusSets.within {g : Word → Word} (h : StatusSets g) : FlagsWithin statusMask g := by
  induction h with
  | none => exact flagsWithin_id _
  | set f b g hf hg ih =>
    refine .set ?_ b ih
    obtain rfl | rfl | rfl | rfl | rfl | rfl := hf <;> decide

/-- The flags that a shift or rotate writes: a rotate CF and OF, a shift all six (41_logic_shift R267 to R273). -/
def ShiftOp.mask : ShiftOp → Word
  | .rol | .ror | .rcl | .rcr => 0x801
  | .shl | .shr | .sar => statusMask

theorem shiftFlags_within {w : Nat} (op : ShiftOp) (u : Word) (a : BitVec w) (c : Nat) :
    FlagsWithin op.mask (shiftFlags op u a c) := by
  cases op with
  | rol | ror | rcl | rcr => exact .set (by decide) _ (.set (by decide) _ (flagsWithin_id _))
  | shl | shr | sar => exact (statusSets_shift _ u a c).within

/-! ### Changes but for the last store -/

/-- From s to t only the given registers, the flags of a mask, EIP and the count of draws change; memory does not when page
walks write nothing. -/
structure Changes (regs : List Reg) (mask : Word) (s t : State) : Prop where
  regs : SameRegs s t regs
  segs : t.segs = s.segs
  flags : t.eflags &&& ~~~mask = s.eflags &&& ~~~mask
  mem : s.plainWalks = true → t.mem = s.mem
  system : SameSystem s t
  events : t.events = s.events

section
variable {regs : List Reg} {mask : Word} {s t : State}

theorem SameSystem.refl (s : State) : SameSystem s s :=
  ⟨rfl, rfl, rfl, rfl, rfl, rfl, rfl, rfl, rfl, rfl, rfl, rfl, rfl, rfl, rfl⟩

theorem Changes.fields (h : Changes regs mask s t) :
    t.cr0 = s.cr0 ∧ t.cr3 = s.cr3 ∧ t.ctx = s.ctx ∧ t.params = s.params := by
  obtain ⟨_, _, _, _, h0, _, h3, _, _, _, _, _, _, hctx, hparams⟩ := h.system
  exact ⟨h0, h3, hctx, hparams⟩

theorem Changes.plainWalks (h : Changes regs mask s t) : t.plainWalks = s.plainWalks := by
  obtain ⟨-, -, -, hparams⟩ := h.fields
  rw [State.plainWalks, hparams, State.plainWalks]

theorem SameSystem.trans {s t u : State} (h : SameSystem s t) (k : SameSystem t u) : SameSystem s u := by
  simp only [SameSystem] at *
  simp [*]

theorem changes_preserved (regs : List Reg) (mask : Word) : Preserved (Changes regs mask) where
  refl := fun s => ⟨fun _ _ => rfl, rfl, rfl, fun _ => rfl, .refl s, rfl⟩
  trans := fun _ _ _ h k =>
    ⟨fun q hq => (k.regs q hq).trans (h.regs q hq), k.segs.trans h.segs, k.flags.trans h.flags,
      fun hw => (k.mem (h.plainWalks.trans hw)).trans (h.mem hw), h.system.trans k.system,
      k.events.trans h.events⟩

theorem Changes.mono {regs' : List Reg} (h : Changes regs mask s t) (hr : regs ⊆ regs') : Changes regs' mask s t :=
  { h with regs := fun q hq => h.regs q fun hm => hq (hr hm) }

/-- When page walks write nothing, such changes do not matter for memory accesses. -/
theorem Changes.agree (h : Changes regs mask s t) (hw : s.plainWalks = true) : Agree s t := by
  obtain ⟨h0, h3, -, hparams⟩ := h.fields
  exact ⟨h0, h3, h.mem hw, hparams, h.segs⟩

theorem changes_mark : OfMark (Changes regs mask) := by
  intro s a v had _
  refine ⟨fun _ _ => rfl, rfl, rfl, fun hw => ?_, .refl s, rfl⟩
  rw [State.plainWalks_off hw] at had
  cases had

theorem changes_draw : OfDraw (Changes regs mask) :=
  fun s => ⟨fun _ _ => rfl, rfl, rfl, fun _ => rfl, .refl s, rfl⟩

theorem changes_eip : OfEip (Changes regs mask) :=
  fun s _ => ⟨fun _ _ => rfl, rfl, rfl, fun _ => rfl, .refl s, rfl⟩

theorem changes_reg {r : Reg} (hr : r ∈ regs) : OfReg (Changes regs mask) r := by
  intro s v
  refine ⟨fun q hq => ?_, rfl, rfl, fun _ => rfl, .refl s, rfl⟩
  have hne : q ≠ r := by rintro rfl; exact hq hr
  rw [State.setReg_regs, Regs.get_set, if_neg hne]

theorem changes_flags {g : Word → Word} (hg : FlagsWithin mask g) (s : State) :
    Changes regs mask s { s with eflags := g s.eflags } :=
  ⟨fun _ _ => rfl, rfl, hg s.eflags, fun _ => rfl, .refl s, rfl⟩

theorem modifyFlags_changes {g : Word → Word} (hg : FlagsWithin mask g) : Keeps (Changes regs mask) (modifyFlags g) :=
  modifyFlags_keeps (changes_flags hg)

theorem changes_status : OfStatus (Changes regs statusMask) := by
  intro f hf
  refine fun s b => changes_flags (setFlag_within ?_ b) s
  obtain rfl | rfl | rfl | rfl | rfl | rfl := hf <;> decide

end

/-! ### The store of a location -/

theorem translates_none {s : State} (hw : s.plainWalks = true) {acc : Access} {user : Bool} {as : List Word}
    (h : s.physAll acc user as = none) : ∃ e, translates acc user as s = .error e := by
  induction as with
  | nil => cases h
  | cons a as ih =>
    simp only [translates, bind_run]
    cases hp : s.phys acc user a with
    | none => exact ⟨_, by rw [translate_blocked hp]⟩
    | some p =>
      have has : s.physAll acc user as = none := by simpa [State.physAll, hp] using h
      obtain ⟨e, he⟩ := ih has
      exact ⟨e, by simp only [translate_run hw hp, he]⟩

/-- A store through a segment that succeeds stores its bytes where the walks lead (20_memory R83, R135). -/
theorem segWrite_ok {s t : State} (hw : s.plainWalks = true) {g : SReg} {off : Word} {n v : Nat} {a : Unit}
    (h : segWrite g off n v s = .ok (a, t)) :
    ∃ ps, s.physAll .write s.user (addrs (s.linear g off) n) = some ps ∧
      t = { s with mem := storeBytes ps (leBytes n v) s.mem } := by
  obtain ⟨_, u, hc, hl⟩ := bind_ok.1 h
  obtain rfl : u = s :=
    checkSegment_keeps (R := fun s t => t = s) ⟨fun _ => rfl, fun _ _ _ h k => k.trans h⟩ _ _ _ _ _ _ _ hc
  replace hl : linWrite u.user (u.linear g off) n v u = .ok (a, t) := hl
  cases hp : u.physAll .write u.user (addrs (u.linear g off) n) with
  | none =>
    obtain ⟨e, he⟩ := translates_none hw hp
    rw [linWrite_error v he] at hl
    cases hl
  | some ps =>
    cases hr : u.inRam ps with
    | false => rw [linWrite_outOfRange hw v hp hr] at hl; cases hl
    | true =>
      simp only [linWrite, bind_run, translates_run hw hp, physWrites_run _ hr] at hl
      cases hl
      exact ⟨ps, rfl, rfl⟩

theorem segWrite_only_mem {s t : State} {g : SReg} {off : Word} {n v : Nat} {a : Unit}
    (h : segWrite g off n v s = .ok (a, t)) : ∃ m, t = { s with mem := m } :=
  segWrite_keeps (R := fun s t => ∃ m, t = { s with mem := m })
    ⟨fun s => ⟨s.mem, rfl⟩, fun _ _ _ h k => by obtain ⟨_, rfl⟩ := h; obtain ⟨m, rfl⟩ := k; exact ⟨m, rfl⟩⟩
    (fun _ _ _ _ => ⟨_, rfl⟩) _ _ _ _ _ _ _ h

/-- What an instruction may change that takes no exception. -/
def Frame.keeps (f : Frame) (s t : State) : Prop :=
  f.holds s t ∧ SameSystem s t ∧ t.events = s.events

theorem Changes.keeps {regs : List Reg} {mask : Word} {s t : State} (h : Changes regs mask s t) (stores : List Store) :
    (⟨regs, [], mask, stores⟩ : Frame).keeps s t :=
  ⟨⟨h.regs, fun q _ => congrArg (·.get q) h.segs, h.flags, fun hw a _ => by rw [h.mem hw]⟩, h.system, h.events⟩

/-- The store of a location after changes of flags: its frame in the state before them. -/
theorem writeLoc_frame {mask : Word} {s u t : State} (hu : Changes [] mask s u) {w : Size} {l : Loc} {v : BitVec w.bits}
    {a : Unit} (h : writeLoc w l v u = .ok (a, t)) : (s.locFrame w l mask).keeps s t := by
  cases l with
  | reg r =>
    have ht : Changes (Loc.regs w (.reg r)) mask u t :=
      writeReg_keeps (changes_reg (List.mem_singleton.2 rfl)) v _ _ _ h
    exact ((changes_preserved _ _).trans _ _ _ (hu.mono (by simp)) ht).keeps []
  | mem g off =>
    obtain ⟨m, rfl⟩ := segWrite_only_mem h
    refine ⟨⟨hu.regs, fun q _ => congrArg (·.get q) hu.segs, hu.flags, fun hw a ha => ?_⟩, hu.system, hu.events⟩
    have hag := hu.agree hw
    obtain ⟨ps, hps, hm⟩ := segWrite_ok (hag.plainWalks.trans hw) h
    rw [physAll_agree hag.cr0 hag.cr3 hag.mem hag.params, hag.user, hag.linear] at hps
    have hmem : m = storeBytes ps (leBytes w.bytes v.toNat) u.mem := congrArg State.mem hm
    have hout := ha _ (List.mem_singleton.2 rfl)
    simp only [State.segStore, Store.covers, hps, List.any_eq_false, beq_iff_eq] at hout
    rw [hmem, read_storeBytes_of_ne _ _ fun p hp e => hout p hp e.symm, hag.mem]

/-! ### Bodies that change flags and then store -/

/-- A run changes the flags of a mask, and then writes a location if anything. -/
def StoresLast (mask : Word) (w : Size) (l : Loc) (x : Exec Unit) : Prop :=
  ∀ s a t, x s = .ok (a, t) → ∃ u, Changes [] mask s u ∧ (t = u ∨ ∃ v, writeLoc w l v u = .ok ((), t))

section
variable {mask : Word} {w : Size} {l : Loc}

theorem StoresLast.nothing : StoresLast mask w l (pure ()) := by
  intro s a t h
  cases h
  exact ⟨s, (changes_preserved _ _).refl s, .inl rfl⟩

theorem StoresLast.write (v : BitVec w.bits) : StoresLast mask w l (writeLoc w l v) :=
  fun s _ _ h => ⟨s, (changes_preserved _ _).refl s, .inr ⟨v, h⟩⟩

theorem StoresLast.bind {x : Exec α} {f : α → Exec Unit} (hx : Keeps (Changes [] mask) x)
    (hf : ∀ a, StoresLast mask w l (f a)) : StoresLast mask w l (x >>= f) := by
  intro s b t h
  obtain ⟨a, s', h1, h2⟩ := bind_ok.1 h
  obtain ⟨u, hu, ht⟩ := hf a s' b t h2
  exact ⟨u, (changes_preserved _ _).trans _ _ _ (hx s a s' h1) hu, ht⟩

theorem StoresLast.ite {c : Prop} [Decidable c] {x y : Exec Unit} (hx : StoresLast mask w l x)
    (hy : StoresLast mask w l y) : StoresLast mask w l (if c then x else y) := by
  split
  · exact hx
  · exact hy

end

/-! ### Instructions by their bodies -/

/-- EA() is computed from the general registers and the context of the instruction (30_encoding R173 to R176). -/
theorem locate_congr {s t : State} (hr : SameRegs s t []) (hc : t.ctx = s.ctx) (rm : RM) : locate t rm = locate s rm := by
  have hreg : t.reg = s.reg := funext fun r => hr r (by simp)
  have hview : t.view = s.view := by funext w r; cases w <;> simp only [State.view, hreg]
  have hbase : base16 t = base16 s := by funext b; cases b <;> simp only [base16, hview]
  have hindex : scaledIndex t = scaledIndex s := by funext sc r; simp only [scaledIndex, hreg]
  have hoff : effectiveOffset t = effectiveOffset s := by
    funext m; cases m <;> simp only [effectiveOffset, hbase, hreg, hindex]
  cases rm with
  | reg r => rfl
  | mem m => simp only [locate, memLoc, hc, hoff]

section
variable {i : Instr} {mask : Word} {s : State}

/-- An instruction takes an exception, or its fetch and its body ran to the end. -/
theorem framed_of_body {body : Exec Unit} {f : Frame} (hi : exec i s = seqInstr body s)
    (h : ∀ s' t, Changes [] mask s s' → body s' = .ok ((), t) → f.keeps s t) : Framed i s f := by
  intro t ht
  rw [hi] at ht
  unfold seqInstr runInstr at ht
  cases hx : (touchFetch >>= fun _ => body >>= fun _ => advance) s with
  | ok v =>
    obtain ⟨_, t'⟩ := v
    rw [hx] at ht
    cases ht
    obtain ⟨_, s', hfetch, hx⟩ := bind_ok.1 hx
    obtain ⟨_, u, hbody, hadvance⟩ := bind_ok.1 hx
    cases hadvance
    have hkeeps := h s' u (touchFetch_keeps (changes_preserved _ _) changes_mark _ _ _ hfetch) hbody
    exact .inr hkeeps
  | error e =>
    rw [hx] at ht
    cases e with
    | raise r => exact .inl ⟨r, ht⟩
    | fatal a => cases a <;> cases ht

theorem framed_of_keeps {regs : List Reg} {body : Exec Unit} (hi : exec i s = seqInstr body s)
    (hk : Keeps (Changes regs mask) body) : Framed i s ⟨regs, [], mask, []⟩ :=
  framed_of_body (mask := mask) hi fun _ _ hs hb =>
    ((changes_preserved regs mask).trans _ _ _ (hs.mono (by simp)) (hk _ _ _ hb)).keeps []

theorem framed_of_storesLast {w : Size} {rm : RM} {k : State → Exec Unit} (hi : exec i s = seqInstr (get >>= k) s)
    (hk : ∀ s, StoresLast mask w (locate s rm) (k s)) : Framed i s (s.locFrame w (locate s rm) mask) := by
  refine framed_of_body (mask := mask) hi fun s' t hs hb => ?_
  obtain ⟨u, hu, ht⟩ := hk s' s' () t hb
  obtain ⟨-, -, hctx, -⟩ := hs.fields
  rw [locate_congr hs.regs hctx] at ht
  have hsu := (changes_preserved _ _).trans _ _ _ hs hu
  obtain rfl | ⟨v, hv⟩ := ht
  · exact (hsu.mono (by simp)).keeps _
  · exact writeLoc_frame hsu hv

end

end Sys2Proof.Machine
end

section
/-! PROOF. The frames of the arithmetic, logic and shift instructions and of SETcc (40_arithmetic, 41_logic_shift): one lemma
per operand shape, and each instruction is a shape of an operation. -/

namespace Sys2Proof.Machine

variable {mask : Word} {i : Instr} {s : State} {w : Size} {r : Reg} {rm : RM} {v : BitVec w.bits}

/-! ### The operand shapes (40_arithmetic R233) -/

/-- An operation changes only the flags of a mask and the count of draws. -/
def BinWithin (mask : Word) (op : BinOp) : Prop :=
  ∀ regs, BinKeeps (Changes regs mask) op

/-- The same of an operation on one value. -/
def UnWithin (mask : Word) (op : UnOp) : Prop :=
  ∀ regs, UnKeeps (Changes regs mask) op

section
variable {op : BinOp} (ho : BinWithin mask op)
include ho

theorem framed_rmFromReg (hi : exec i s = seqInstr (rmFromReg op w rm r) s) :
    Framed i s (s.locFrame w (locate s rm) mask) :=
  framed_of_storesLast hi fun _ => .bind (readLoc_keeps (changes_preserved _ _) changes_mark _ _) fun _ =>
    .bind (readReg_keeps (changes_preserved _ _) _ _) fun _ => .bind (ho _ _ _ _) fun _ => .write _

theorem framed_rmFromImm (hi : exec i s = seqInstr (rmFromImm op w rm v) s) :
    Framed i s (s.locFrame w (locate s rm) mask) :=
  framed_of_storesLast hi fun _ => .bind (readLoc_keeps (changes_preserved _ _) changes_mark _ _) fun _ =>
    .bind (ho _ _ _ _) fun _ => .write _

theorem framed_regFromRM (hi : exec i s = seqInstr (regFromRM op w r rm) s) : Framed i s (s.locFrame w (.reg r) mask) :=
  framed_of_keeps hi
    (regFromRM_keeps (changes_preserved _ _) changes_mark (ho _) (changes_reg (List.mem_singleton.2 rfl)) rm)

theorem framed_regFromImm (hi : exec i s = seqInstr (regFromImm op w r v) s) : Framed i s (s.locFrame w (.reg r) mask) :=
  framed_of_keeps hi (regFromImm_keeps (changes_preserved _ _) (ho _) (changes_reg (List.mem_singleton.2 rfl)) v)

theorem framed_testRMReg (hi : exec i s = seqInstr (testRMReg op w rm r) s) : Framed i s ⟨[], [], mask, []⟩ :=
  framed_of_keeps hi (testRMReg_keeps (changes_preserved _ _) changes_mark (ho _) w rm r)

theorem framed_testRegRM (hi : exec i s = seqInstr (testRegRM op w r rm) s) : Framed i s ⟨[], [], mask, []⟩ :=
  framed_of_keeps hi (testRegRM_keeps (changes_preserved _ _) changes_mark (ho _) w r rm)

theorem framed_testRMImm (hi : exec i s = seqInstr (testRMImm op w rm v) s) : Framed i s ⟨[], [], mask, []⟩ :=
  framed_of_keeps hi (testRMImm_keeps (changes_preserved _ _) changes_mark (ho _) w rm v)

theorem framed_testRegImm (hi : exec i s = seqInstr (testRegImm op w r v) s) : Framed i s ⟨[], [], mask, []⟩ :=
  framed_of_keeps hi (testRegImm_keeps (changes_preserved _ _) (ho _) w r v)

end

section
variable {op : UnOp} (ho : UnWithin mask op)
include ho

theorem framed_updateRM (hi : exec i s = seqInstr (updateRM op w rm) s) : Framed i s (s.locFrame w (locate s rm) mask) :=
  framed_of_storesLast hi fun _ => .bind (readLoc_keeps (changes_preserved _ _) changes_mark _ _) fun _ =>
    .bind (ho _ _ _) fun _ => .write _

theorem framed_updateReg (hi : exec i s = seqInstr (updateReg op w r) s) : Framed i s (s.locFrame w (.reg r) mask) :=
  framed_of_keeps hi (updateReg_keeps (changes_preserved _ _) (ho _) (changes_reg (List.mem_singleton.2 rfl)))

end

/-! ### ADD to CMP and TEST -/

theorem addOp_within : BinWithin statusMask addOp := fun _ => addOp_keeps (changes_preserved _ _) changes_status

theorem adcOp_within : BinWithin statusMask adcOp := fun _ => adcOp_keeps (changes_preserved _ _) changes_status

theorem subOp_within : BinWithin statusMask subOp := fun _ => subOp_keeps (changes_preserved _ _) changes_status

theorem sbbOp_within : BinWithin statusMask sbbOp := fun _ => sbbOp_keeps (changes_preserved _ _) changes_status

theorem andOp_within : BinWithin statusMask andOp :=
  fun _ => andOp_keeps (changes_preserved _ _) changes_status changes_draw

theorem orOp_within : BinWithin statusMask orOp :=
  fun _ => orOp_keeps (changes_preserved _ _) changes_status changes_draw

theorem xorOp_within : BinWithin statusMask xorOp :=
  fun _ => xorOp_keeps (changes_preserved _ _) changes_status changes_draw

theorem NineForms.Does.frames {f : NineForms} {op : BinOp} (h : f.Does op) (ho : BinWithin statusMask op) :
    f.FramesWrites := fun s rm r ib iz =>
  ⟨framed_rmFromReg ho (h.rm8R8 rm r s), framed_rmFromReg ho (h.rmvRv rm r s), framed_regFromRM ho (h.r8Rm8 r rm s),
    framed_regFromRM ho (h.rvRmv r rm s), framed_regFromImm ho (h.alIb ib s), framed_regFromImm ho (h.eaxIz iz s),
    framed_rmFromImm ho (h.rm8Ib rm ib s), framed_rmFromImm ho (h.rmvIz rm iz s), framed_rmFromImm ho (h.rmvIbs rm ib s)⟩

theorem NineForms.Tests.frames {f : NineForms} {op : BinOp} (h : f.Tests op) (ho : BinWithin statusMask op) :
    f.FramesCompares := fun rm r ib iz =>
  ⟨fun s => framed_testRMReg ho (h.rm8R8 rm r s), fun s => framed_testRMReg ho (h.rmvRv rm r s),
    fun s => framed_testRegRM ho (h.r8Rm8 r rm s), fun s => framed_testRegRM ho (h.rvRmv r rm s),
    fun s => framed_testRegImm ho (h.alIb ib s), fun s => framed_testRegImm ho (h.eaxIz iz s),
    fun s => framed_testRMImm ho (h.rm8Ib rm ib s), fun s => framed_testRMImm ho (h.rmvIz rm iz s),
    fun s => framed_testRMImm ho (h.rmvIbs rm ib s)⟩

/-- Settles O53: the operations change status flags only, and of each form the store to its destination comes last. -/
theorem arithmeticFrames : Obligations.ArithmeticFrames := by
  unfold Obligations.ArithmeticFrames
  refine ⟨add_does.frames addOp_within, adc_does.frames adcOp_within, sub_does.frames subOp_within,
    sbb_does.frames sbbOp_within, and_does.frames andOp_within, or_does.frames orOp_within, xor_does.frames xorOp_within,
    cmp_tests.frames subOp_within, fun rm r ib iz => ?_⟩
  have ho := andOp_within
  exact ⟨fun _ => framed_testRMReg ho rfl, fun _ => framed_testRMReg ho rfl, fun _ => framed_testRegImm ho rfl,
    fun _ => framed_testRegImm ho rfl, fun _ => framed_testRMImm ho rfl, fun _ => framed_testRMImm ho rfl⟩

/-! ### INC, DEC, NEG and NOT -/

theorem incOp_within : UnWithin 0x8D4 incOp := fun _ _ a =>
  .bind (changes_preserved _ _) (modifyFlags_changes (incFlags_within a)) fun _ => .pure (changes_preserved _ _) _

theorem decOp_within : UnWithin 0x8D4 decOp := fun _ _ a =>
  .bind (changes_preserved _ _) (modifyFlags_changes (decFlags_within a)) fun _ => .pure (changes_preserved _ _) _

theorem negOp_within : UnWithin statusMask negOp := fun _ => negOp_keeps (changes_preserved _ _) changes_status

theorem notOp_within : UnWithin 0 notOp := fun _ => notOp_keeps (changes_preserved _ _)

/-! ### Multiplication and division -/

/-- The accumulator pair is AX, or the accumulator and DX or EDX (40_arithmetic R242). -/
theorem pair_b8 (x : Reg) (h : x = viewHome .b8 .eax ∨ x = viewHome .b8 (highReg .b8)) : x ∈ [Reg.eax] := by
  obtain rfl | rfl := h <;> decide

theorem pair_any (w : Size) (x : Reg) (h : x = viewHome w .eax ∨ x = viewHome w (highReg w)) : x ∈ [Reg.eax, .edx] := by
  obtain rfl | rfl := h <;> cases w <;> decide

section
variable {regs : List Reg} (hregs : ∀ x : Reg, x = viewHome w .eax ∨ x = viewHome w (highReg w) → x ∈ regs)
include hregs

theorem writePair_changes (hi lo : BitVec w.bits) : Keeps (Changes regs mask) (writePair w hi lo) :=
  .bind (changes_preserved _ _) (writeReg_keeps (changes_reg (hregs _ (.inl rfl))) _) fun _ =>
    writeReg_keeps (changes_reg (hregs _ (.inr rfl))) _

/-- The end of every multiplication and division: the pair is written and the status flags set from a free value. -/
theorem pairThenFlags_changes (hi lo : BitVec w.bits) {g : Word → Word → Word} (hg : ∀ u, StatusSets (g u)) :
    Keeps (Changes regs statusMask) (writePair w hi lo >>= fun _ => draw >>= fun u => modifyFlags (g u)) :=
  .bind (changes_preserved _ _) (writePair_changes hregs hi lo) fun _ =>
    .bind (changes_preserved _ _) (draw_keeps changes_draw) fun u => modifyFlags_changes (hg u).within

theorem mulAcc_changes (rm : RM) : Keeps (Changes regs statusMask) (mulAcc w rm) :=
  have hR := changes_preserved regs statusMask
  .bind hR (readRM_keeps hR changes_mark _ _) fun _ => .bind hR (readReg_keeps hR _ _) fun _ =>
    pairThenFlags_changes hregs _ _ fun u => statusSets_mul u _

theorem imulAcc_changes (rm : RM) : Keeps (Changes regs statusMask) (imulAcc w rm) :=
  have hR := changes_preserved regs statusMask
  .bind hR (readRM_keeps hR changes_mark _ _) fun _ => .bind hR (readReg_keeps hR _ _) fun _ =>
    pairThenFlags_changes hregs _ _ fun u => statusSets_mul u _

theorem divAcc_changes (rm : RM) : Keeps (Changes regs statusMask) (divAcc w rm) :=
  have hR := changes_preserved regs statusMask
  .bind hR (readRM_keeps hR changes_mark _ _) fun _ => .bind hR (.check hR _ _) fun _ => .bind hR (.get hR) fun _ =>
    .bind hR (.check hR _ _) fun _ => pairThenFlags_changes hregs _ _ statusSets_undefined

theorem idivAcc_changes (rm : RM) : Keeps (Changes regs statusMask) (idivAcc w rm) :=
  have hR := changes_preserved regs statusMask
  .bind hR (readRM_keeps hR changes_mark _ _) fun _ => .bind hR (.check hR _ _) fun _ => .bind hR (.get hR) fun _ =>
    .bind hR (.check hR _ _) fun _ => pairThenFlags_changes hregs _ _ statusSets_undefined

end

theorem framed_imulReg (hw : w ≠ .b8) (hi : exec i s = seqInstr (imulReg w r rm) s) :
    Framed i s ⟨[r], [], statusMask, []⟩ :=
  framed_of_keeps hi (imulReg_keeps (changes_preserved _ _) changes_status changes_draw changes_mark
    (changes_reg (by simp [viewHome, hw])) rm)

theorem framed_imulImm (hw : w ≠ .b8) (hi : exec i s = seqInstr (imulImm w r rm v) s) :
    Framed i s ⟨[r], [], statusMask, []⟩ :=
  framed_of_keeps hi (imulImm_keeps (changes_preserved _ _) changes_status changes_draw changes_mark
    (changes_reg (by simp [viewHome, hw])) rm v)

/-! ### Shifts and SETcc -/

/-- The six forms of an instruction are shifts or rotates of one kind (41_logic_shift R266). -/
structure ShiftForms.Does (f : ShiftForms) (op : ShiftOp) : Prop where
  rm8Ib : ∀ rm ib s, exec (f.rm8Ib rm ib) s = seqInstr (shiftRM op .b8 rm ib.toNat) s
  rmvIb : ∀ rm ib s, exec (f.rmvIb rm ib) s = seqInstr (shiftRM op s.ctx.osz rm ib.toNat) s
  rm8One : ∀ rm s, exec (f.rm8One rm) s = seqInstr (shiftRM op .b8 rm 1) s
  rmvOne : ∀ rm s, exec (f.rmvOne rm) s = seqInstr (shiftRM op s.ctx.osz rm 1) s
  rm8Cl : ∀ rm s, exec (f.rm8Cl rm) s = seqInstr (shiftRM op .b8 rm s.countCl) s
  rmvCl : ∀ rm s, exec (f.rmvCl rm) s = seqInstr (shiftRM op s.ctx.osz rm s.countCl) s

theorem rol_does : ShiftForms.rol.Does .rol := by constructor <;> intros <;> rfl

theorem ror_does : ShiftForms.ror.Does .ror := by constructor <;> intros <;> rfl

theorem rcl_does : ShiftForms.rcl.Does .rcl := by constructor <;> intros <;> rfl

theorem rcr_does : ShiftForms.rcr.Does .rcr := by constructor <;> intros <;> rfl

theorem shl_does : ShiftForms.shl.Does .shl := by constructor <;> intros <;> rfl

theorem shr_does : ShiftForms.shr.Does .shr := by constructor <;> intros <;> rfl

theorem sar_does : ShiftForms.sar.Does .sar := by constructor <;> intros <;> rfl

theorem framed_shiftRM {op : ShiftOp} {n : Nat} (hi : exec i s = seqInstr (shiftRM op w rm n) s) :
    Framed i s (s.locFrame w (locate s rm) op.mask) :=
  framed_of_storesLast hi fun _ => .bind (readLoc_keeps (changes_preserved _ _) changes_mark _ _) fun _ =>
    .ite .nothing (.bind (draw_keeps changes_draw) fun _ =>
      .bind (modifyFlags_changes (shiftFlags_within _ _ _ _)) fun _ => .write _)

theorem framed_doubleShiftRM {left : Bool} {n : Nat} (hi : exec i s = seqInstr (doubleShiftRM left w rm r n) s) :
    Framed i s (s.locFrame w (locate s rm) statusMask) :=
  framed_of_storesLast hi fun _ => .bind (readLoc_keeps (changes_preserved _ _) changes_mark _ _) fun _ =>
    .bind (readReg_keeps (changes_preserved _ _) _ _) fun _ => .ite .nothing (.ite
      (.bind (draw_keeps changes_draw) fun _ => .bind (draw_keeps changes_draw) fun _ =>
        .bind (modifyFlags_changes (statusSets_undefined _).within) fun _ => .write _)
      (.bind (draw_keeps changes_draw) fun _ =>
        .bind (modifyFlags_changes (statusSets_doubleShift _ _ _ _ _).within) fun _ => .write _))

theorem ShiftForms.Does.frames {f : ShiftForms} {op : ShiftOp} (h : f.Does op) : f.Frames op.mask := fun s rm ib =>
  ⟨framed_shiftRM (h.rm8Ib rm ib s), framed_shiftRM (h.rmvIb rm ib s), framed_shiftRM (h.rm8One rm s),
    framed_shiftRM (h.rmvOne rm s), framed_shiftRM (h.rm8Cl rm s), framed_shiftRM (h.rmvCl rm s)⟩

theorem framed_setOnCond {cc : Cond} (hi : exec i s = seqInstr (setOnCond cc rm) s) :
    Framed i s (s.locFrame .b8 (locate s rm) 0) :=
  framed_of_storesLast (k := fun s => writeLoc .b8 (locate s rm) (if condHolds cc s.eflags then 1 else 0)) hi
    fun _ => .write _

theorem osz_ne_b8 (c : Ctx) : c.osz ≠ .b8 := by
  obtain h | h := c.osz_cases <;> simp [h]

/-- Settles O54: each instruction is a shape of an operation whose flags lie in its mask. -/
theorem oneOperandFrames : Obligations.OneOperandFrames := by
  unfold Obligations.OneOperandFrames
  rintro s rm r ib iz cc ig _ rfl
  have hw := osz_ne_b8 s.ctx
  simp only [List.forall_mem_cons, List.not_mem_nil, false_implies, implies_true, and_true]
  refine ⟨framed_updateReg incOp_within rfl, framed_updateReg decOp_within rfl, framed_updateRM incOp_within rfl,
    framed_updateRM decOp_within rfl, framed_updateRM incOp_within rfl, framed_updateRM decOp_within rfl,
    framed_updateRM negOp_within rfl, framed_updateRM negOp_within rfl, framed_updateRM notOp_within rfl,
    framed_updateRM notOp_within rfl, ?_, ?_, ?_, ?_, ?_, ?_, framed_setOnCond rfl⟩
  · exact ⟨framed_of_keeps rfl (mulAcc_changes pair_b8 rm), framed_of_keeps rfl (imulAcc_changes pair_b8 rm),
      framed_of_keeps rfl (divAcc_changes pair_b8 rm), framed_of_keeps rfl (idivAcc_changes pair_b8 rm)⟩
  · have hpair := pair_any s.ctx.osz
    exact ⟨framed_of_keeps rfl (mulAcc_changes hpair rm), framed_of_keeps rfl (imulAcc_changes hpair rm),
      framed_of_keeps rfl (divAcc_changes hpair rm), framed_of_keeps rfl (idivAcc_changes hpair rm)⟩
  · exact ⟨framed_imulReg hw rfl, framed_imulImm hw rfl, framed_imulImm hw rfl⟩
  · exact ⟨rol_does.frames, ror_does.frames, rcl_does.frames, rcr_does.frames⟩
  · exact ⟨shl_does.frames, shr_does.frames, sar_does.frames⟩
  · exact ⟨framed_doubleShiftRM rfl, framed_doubleShiftRM rfl, framed_doubleShiftRM rfl, framed_doubleShiftRM rfl⟩

end Sys2Proof.Machine
end

section
/-! PROOF. Multiplication and division (40_arithmetic R242 to R246): the halves of a product, when it needs more bits than one
operand has, and the quotient and remainder that a division is known by. -/

namespace Sys2Proof.Machine

variable {w : Size} {s : State} {rm : RM}

/-- The end of every multiplication and division: the pair is written and the status flags set from a free value. -/
theorem pairThenFlags_run (hi lo : BitVec w.bits) (g : Word → Word → Word) (s : State) :
    (writePair w hi lo >>= fun _ => draw >>= fun u => modifyFlags (g u)) s =
      .ok ((), ((s.setView w .eax lo).setView w (highReg w) hi).drawn.withFlags (g s.free)) := by
  simp only [writePair, bind_run, writeReg_run, draw_run, modifyFlags_run, State.withFlags, State.drawn, State.free,
    State.setView_draws]

/-! ### Products -/

theorem toNat_ofInt_cast (n : Nat) (p : Int) : ((BitVec.ofInt n p).toNat : Int) = p % 2 ^ n := by
  rw [BitVec.toNat_ofInt, Int.toNat_of_nonneg (Int.emod_nonneg p (by positivity))]
  push_cast
  rfl

/-- Cut off above twice the width and below the width, a number keeps the digit between. -/
theorem emod_ediv_emod (p : Int) {m : Int} (hm : m ≠ 0) : p % (m * m) / m % m = p / m % m := by
  have hdigits : p % (m * m) = p + m * -(m * (p / (m * m))) := by
    rw [Int.emod_def]
    ring
  rw [hdigits, Int.add_mul_ediv_left _ _ hm, ← mul_neg, Int.add_mul_emod_self_left]

/-- The halves of a product of twice the width (40_arithmetic R242, R243). -/
theorem extractLow_ofInt (n : Nat) (p : Int) : (BitVec.ofInt (n + n) p).extractLsb' 0 n = BitVec.ofInt n p := by
  refine BitVec.eq_of_toNat_eq (Int.natCast_inj.1 ?_)
  rw [BitVec.extractLsb'_toNat, Nat.shiftRight_zero]
  push_cast
  rw [toNat_ofInt_cast, toNat_ofInt_cast, Int.emod_emod_of_dvd p (pow_dvd_pow 2 (Nat.le_add_left n n))]

theorem extractHigh_ofInt (n : Nat) (p : Int) :
    (BitVec.ofInt (n + n) p).extractLsb' n n = BitVec.ofInt n (p / 2 ^ n) := by
  refine BitVec.eq_of_toNat_eq (Int.natCast_inj.1 ?_)
  rw [BitVec.extractLsb'_toNat, Nat.shiftRight_eq_div_pow]
  push_cast
  rw [toNat_ofInt_cast, toNat_ofInt_cast, pow_add, emod_ediv_emod p (by positivity)]

theorem extractLow_ofNat (n p : Nat) : (BitVec.ofNat (n + n) p).extractLsb' 0 n = BitVec.ofNat n p := by
  simpa only [BitVec.ofInt_natCast] using extractLow_ofInt n p

theorem extractHigh_ofNat (n p : Nat) : (BitVec.ofNat (n + n) p).extractLsb' n n = BitVec.ofNat n (p / 2 ^ n) := by
  have h := extractHigh_ofInt n p
  rwa [← Int.cast_ofNat_Int, ← Int.natCast_pow, ← Int.natCast_ediv, BitVec.ofInt_natCast, BitVec.ofInt_natCast] at h

/-- The high half of an unsigned product is not zero when the product needs more bits than one operand has. -/
theorem highHalf_ne_zero (a b : BitVec w.bits) :
    (BitVec.ofNat w.bits (a.toNat * b.toNat / 2 ^ w.bits) != 0) = decide (2 ^ w.bits ≤ a.toNat * b.toNat) := by
  have hlt : a.toNat * b.toNat / 2 ^ w.bits < 2 ^ w.bits :=
    Nat.div_lt_of_lt_mul (Nat.mul_lt_mul'' a.isLt b.isLt)
  have hzero : BitVec.ofNat w.bits (a.toNat * b.toNat / 2 ^ w.bits) = 0 ↔ a.toNat * b.toNat < 2 ^ w.bits := by
    rw [← BitVec.toNat_inj, BitVec.toNat_ofNat, Nat.mod_eq_of_lt hlt, BitVec.ofNat_eq_ofNat, BitVec.toNat_zero,
      Nat.div_eq_zero_iff_lt (by positivity)]
  rw [Bool.eq_iff_iff, bne_iff_ne, ne_eq, hzero, decide_eq_true_eq, Nat.not_lt]

/-- A number is a signed value of a width when its truncation has it as signed value (40_arithmetic R243). -/
theorem ne_toInt_ofInt (w : Size) (p : Int) : (p != (BitVec.ofInt w.bits p).toInt) = !fitsSigned w p := by
  have hpos : 0 < w.bits := by cases w <;> decide
  have hle := (BitVec.ofInt w.bits p).le_toInt
  have hlt := (BitVec.ofInt w.bits p).toInt_lt
  rw [Bool.eq_iff_iff, bne_iff_ne, Bool.not_eq_true', fitsSigned]
  simp only [Bool.and_eq_false_iff, decide_eq_false_iff_not]
  constructor
  · intro hne
    by_contra hfits
    push Not at hfits
    exact hne (BitVec.toInt_ofInt_eq_self hpos hfits.1 hfits.2).symm
  · rintro hfits hp
    rw [hp] at hfits
    omega

theorem overflows_eq (w : Size) (p : Int) :
    (decide (p < -(2 ^ (w.bits - 1))) || decide (2 ^ (w.bits - 1) - 1 < p)) = !fitsSigned w p := by
  rw [Bool.eq_iff_iff]
  simp only [fitsSigned, Bool.or_eq_true, decide_eq_true_eq, Bool.not_eq_true', Bool.and_eq_false_iff, decide_eq_false_iff_not]
  omega

theorem mulAcc_run (h : s.canRead w (locate s rm) = true) :
    seqInstr (mulAcc w rm) s =
      .next (s.multiplied w (BitVec.ofNat _ ((s.view w .eax).toNat * (s.locValue w (locate s rm)).toNat))
        (decide (2 ^ w.bits ≤ (s.view w .eax).toNat * (s.locValue w (locate s rm)).toNat))) := by
  obtain ⟨hp, hr⟩ := canRead_iff h
  rw [State.multiplied, State.setPair, extractLow_ofNat, extractHigh_ofNat, ← highHalf_ne_zero]
  refine seqInstr_ok hp ?_
  simp only [mulAcc, bind_run, readRM_run hp hr, readReg_run]
  exact pairThenFlags_run _ _ (fun u => mulFlags u _) s

theorem imulAcc_run (h : s.canRead w (locate s rm) = true) :
    seqInstr (imulAcc w rm) s =
      .next (s.multiplied w (BitVec.ofInt _ ((s.view w .eax).toInt * (s.locValue w (locate s rm)).toInt))
        (!fitsSigned w ((s.view w .eax).toInt * (s.locValue w (locate s rm)).toInt))) := by
  obtain ⟨hp, hr⟩ := canRead_iff h
  rw [State.multiplied, State.setPair, extractLow_ofInt, extractHigh_ofInt, ← ne_toInt_ofInt]
  refine seqInstr_ok hp ?_
  simp only [imulAcc, bind_run, readRM_run hp hr, readReg_run]
  exact pairThenFlags_run _ _ (fun u => mulFlags u _) s

theorem imulStore_run (r : Reg) (a b : BitVec w.bits) (s : State) :
    imulStore w r a b s =
      .ok ((), (s.setView w r (BitVec.ofInt w.bits (a.toInt * b.toInt))).drawn.withFlags
        (mulFlags s.free (!fitsSigned w (a.toInt * b.toInt)))) := by
  simp only [imulStore, bind_run, writeReg_run, draw_run, modifyFlags_run, overflows_eq, State.withFlags, State.drawn,
    State.free, State.setView_draws]

theorem imulReg_run {r : Reg} (h : s.canRead w (locate s rm) = true) :
    seqInstr (imulReg w r rm) s =
      .next (s.imulStored w r ((s.view w r).toInt * (s.locValue w (locate s rm)).toInt)) := by
  obtain ⟨hp, hr⟩ := canRead_iff h
  refine seqInstr_ok hp ?_
  simp only [imulReg, bind_run, readReg_run, readRM_run hp hr, imulStore_run]

theorem imulImm_run {r : Reg} {imm : BitVec w.bits} (h : s.canRead w (locate s rm) = true) :
    seqInstr (imulImm w r rm imm) s = .next (s.imulStored w r ((s.locValue w (locate s rm)).toInt * imm.toInt)) := by
  obtain ⟨hp, hr⟩ := canRead_iff h
  refine seqInstr_ok hp ?_
  simp only [imulImm, bind_run, readRM_run hp hr, imulStore_run]

/-- Settles O3: the halves that the forms write are those of the exact product, and CF and OF compare it with its low half. -/
theorem multipliesRun : Obligations.MultipliesRun := by
  unfold Obligations.MultipliesRun
  refine ⟨fun s rm h => ⟨?_, ?_⟩, fun s rm h => ⟨?_, ?_, fun r => imulReg_run h, fun r iz => imulImm_run h,
    fun r ib => imulImm_run h⟩⟩
  · rintro _ rfl
    exact mulAcc_run h
  · rintro _ rfl
    exact imulAcc_run h
  · rintro _ rfl
    exact mulAcc_run h
  · rintro _ rfl
    exact imulAcc_run h

/-! ### Quotients -/

/-- A zero divisor raises the divide error before anything is written (40_arithmetic R245). -/
theorem divAcc_zero (h : s.canRead w (locate s rm) = true) (hd : s.locValue w (locate s rm) = 0) :
    seqInstr (divAcc w rm) s = s.faulted 0 none := by
  obtain ⟨hp, hread⟩ := canRead_iff h
  refine seqInstr_raise (r := ⟨0, none, none⟩) hp ?_
  simp only [divAcc, bind_run, readRM_run hp hread, hd, bne_self_eq_false, check_false]
  rfl

theorem idivAcc_zero (h : s.canRead w (locate s rm) = true) (hd : s.locValue w (locate s rm) = 0) :
    seqInstr (idivAcc w rm) s = s.faulted 0 none := by
  obtain ⟨hp, hread⟩ := canRead_iff h
  refine seqInstr_raise (r := ⟨0, none, none⟩) hp ?_
  simp only [idivAcc, bind_run, readRM_run hp hread, hd, bne_self_eq_false, check_false]
  rfl

/-- DIV by a divisor that is not zero (40_arithmetic R245). -/
theorem divAcc_run {d : BitVec w.bits} {q r : Nat} (h : s.canRead w (locate s rm) = true)
    (hd : s.locValue w (locate s rm) = d) (hne : d ≠ 0) (hq : (accPair w s).toNat / d.toNat = q)
    (hr : (accPair w s).toNat % d.toNat = r) :
    seqInstr (divAcc w rm) s =
      if q < 2 ^ w.bits then .next (s.divided w (BitVec.ofNat _ q) (BitVec.ofNat _ r)) else s.faulted 0 none := by
  obtain ⟨hp, hread⟩ := canRead_iff h
  have hbody : divAcc w rm s = (check (decide (q < 2 ^ w.bits)) divideError >>= fun _ =>
      writePair w (BitVec.ofNat w.bits r) (BitVec.ofNat w.bits q) >>= fun _ =>
      draw >>= fun u => modifyFlags (undefinedFlags u)) s := by
    simp only [divAcc, bind_run, readRM_run hp hread, hd, bne_iff_ne.2 hne, check_true, get_run, hq, hr]
  split
  · next hfits =>
    refine seqInstr_ok hp ?_
    rw [hbody, decide_eq_true hfits, bind_run, check_true]
    exact pairThenFlags_run _ _ undefinedFlags s
  · next hfits =>
    refine seqInstr_raise (r := ⟨0, none, none⟩) hp ?_
    rw [hbody, decide_eq_false hfits, bind_run, check_false]
    rfl

/-- IDIV by a divisor that is not zero, rounding toward zero (40_arithmetic R246). -/
theorem idivAcc_run {d : BitVec w.bits} {q r : Int} (h : s.canRead w (locate s rm) = true)
    (hd : s.locValue w (locate s rm) = d) (hne : d ≠ 0) (hq : (accPair w s).toInt.tdiv d.toInt = q)
    (hr : (accPair w s).toInt.tmod d.toInt = r) :
    seqInstr (idivAcc w rm) s =
      if fitsSigned w q then .next (s.divided w (BitVec.ofInt _ q) (BitVec.ofInt _ r)) else s.faulted 0 none := by
  obtain ⟨hp, hread⟩ := canRead_iff h
  have hrange : decide (q ≤ 2 ^ (w.bits - 1) - 1) = decide (q < 2 ^ (w.bits - 1)) := by
    rw [decide_eq_decide]
    omega
  have hbody : idivAcc w rm s = (check (fitsSigned w q) divideError >>= fun _ =>
      writePair w (BitVec.ofInt w.bits r) (BitVec.ofInt w.bits q) >>= fun _ =>
      draw >>= fun u => modifyFlags (undefinedFlags u)) s := by
    simp only [idivAcc, bind_run, readRM_run hp hread, hd, bne_iff_ne.2 hne, check_true, get_run, hq, hr, hrange, fitsSigned]
  split
  · next hfits =>
    refine seqInstr_ok hp ?_
    rw [hbody, hfits, bind_run, check_true]
    exact pairThenFlags_run _ _ undefinedFlags s
  · next hfits =>
    refine seqInstr_raise (r := ⟨0, none, none⟩) hp ?_
    rw [hbody, Bool.eq_false_iff.2 hfits, bind_run, check_false]
    rfl

/-- A remainder smaller than the divisor and of the dividend's sign is that of the division rounding toward zero. -/
theorem tdiv_tmod_of_sign {n d q r : Int} (hn : n = q * d + r) (hr : r.natAbs < d.natAbs) (hsign : 0 ≤ r * n) :
    n.tdiv d = q ∧ n.tmod d = r := by
  have hd : d ≠ 0 := by rintro rfl; simp at hr
  have hsum : r + d * q = n := by rw [hn]; ring
  obtain hpos | rfl | hneg := lt_trichotomy 0 n
  · have h0 : 0 ≤ r := nonneg_of_mul_nonneg_left hsign hpos
    exact (Int.tdiv_tmod_unique hpos.le hd).2 ⟨hsum, h0, by omega⟩
  · have hdvd : d ∣ r := ⟨-q, by linarith⟩
    have h0 : r = 0 := Int.eq_zero_of_dvd_of_natAbs_lt_natAbs hdvd hr
    exact (Int.tdiv_tmod_unique le_rfl hd).2 ⟨hsum, h0.ge, by omega⟩
  · have h0 : r ≤ 0 := nonpos_of_mul_nonneg_left hsign hneg
    exact (Int.tdiv_tmod_unique' hneg.le hd).2 ⟨hsum, by omega, h0⟩

theorem exec_divInstr (hw : w = .b8 ∨ w = s.ctx.osz) :
    exec (if w = .b8 then Instr.divRm8 rm else Instr.divRmv rm) s = seqInstr (divAcc w rm) s ∧
      exec (if w = .b8 then Instr.idivRm8 rm else Instr.idivRmv rm) s = seqInstr (idivAcc w rm) s := by
  by_cases hb : w = .b8
  · subst hb
    exact ⟨rfl, rfl⟩
  · obtain rfl := hw.resolve_left hb
    rw [if_neg hb, if_neg hb]
    exact ⟨rfl, rfl⟩

/-- Settles O4: a division with a remainder in its range is the one that the model makes. -/
theorem dividesRun : Obligations.DividesRun := by
  unfold Obligations.DividesRun
  rintro w s rm hw h _ _ d rfl rfl hd
  obtain ⟨hdiv, hidiv⟩ := exec_divInstr (rm := rm) hw
  rw [hdiv, hidiv]
  refine ⟨fun h0 => ?_, fun q r hn hr => ?_, fun q r hn hr hsign => ?_⟩
  · have hzero := hd.symm.trans h0
    exact ⟨divAcc_zero h hzero, idivAcc_zero h hzero⟩
  · have hne : d ≠ 0 := by rintro rfl; simp at hr
    have hsum : r + d.toNat * q = (accPair w s).toNat := by rw [hn, Nat.mul_comm, Nat.add_comm]
    obtain ⟨hq, hr⟩ := (Nat.div_mod_unique (by omega)).2 ⟨hsum, hr⟩
    exact divAcc_run h hd.symm hne hq hr
  · have hne : d ≠ 0 := by rintro rfl; simp at hr
    obtain ⟨hq, hr⟩ := tdiv_tmod_of_sign hn hr hsign
    exact idivAcc_run h hd.symm hne hq hr

end Sys2Proof.Machine
end

section
/-! PROOF. AND, OR, XOR, TEST, INC, DEC, NEG and NOT (41_logic_shift R260 to R265; 40_arithmetic R239 to R241), the shifts and
rotates, SHLD and SHRD (41_logic_shift R266, R274, R275): every form is a shape of an operation whose whole effect is known. -/

namespace Sys2Proof.Machine

/-- Settles O2: each operation computes its effect, and every form is a shape of its operation. -/
theorem logicAndUnaryRun : Obligations.LogicAndUnaryRun := by
  unfold Obligations.LogicAndUnaryRun
  refine ⟨and_does.writes comp_and ea_and, or_does.writes comp_or ea_or, xor_does.writes comp_xor ea_xor,
    fun _ _ _ h => testRMReg_run comp_and h, fun _ _ _ h => testRMReg_run comp_and h,
    fun _ _ h => testRegImm_run comp_and h, fun _ _ h => testRegImm_run comp_and h,
    fun _ _ _ h => testRMImm_run comp_and h, fun _ _ _ h => testRMImm_run comp_and h,
    fun _ _ h => updateReg_run uc_inc h, fun _ _ h => updateReg_run uc_dec h, fun _ _ h => ?_, fun _ _ h => ?_⟩
  · exact ⟨updateRM_run uc_inc ua_inc h, updateRM_run uc_dec ua_dec h, updateRM_run uc_neg ua_neg h,
      updateRM_run uc_not ua_not h⟩
  · exact ⟨updateRM_run uc_inc ua_inc h, updateRM_run uc_dec ua_dec h, updateRM_run uc_neg ua_neg h,
      updateRM_run uc_not ua_not h⟩

/-! ### Shifts -/

variable {s : State} {w : Size} {l : Loc} {rm : RM} {n : Nat}

/-- The destination is read with every count, and written with an effective count that is not 0 (41_logic_shift R266). -/
theorem canShift_iff : s.canShift w l n = true ↔
    s.plainWalks = true ∧ s.locReadable w l = true ∧ (n % 32 ≠ 0 → s.locWritable w l = true) := by
  simp only [State.canShift, Bool.and_eq_true, Bool.or_eq_true, beq_iff_eq, and_assoc, or_iff_not_imp_left, ne_eq]

/-- A write runs after any change that memory accesses do not read. -/
theorem writeLoc_run_agree {t : State} (ha : Agree s t) (hp : s.plainWalks = true) (hw : s.locWritable w l = true)
    (v : BitVec w.bits) : writeLoc w l v t = .ok ((), t.locStore w l v) :=
  writeLoc_run (ha.plainWalks.trans hp) v ((ha.locWritable w l).trans hw)

/-- Flags from one free value, and then the result. -/
theorem drawFlagsWrite_run (hp : s.plainWalks = true) (hw : s.locWritable w l = true) (g : Word → Word → Word)
    (v : BitVec w.bits) :
    (draw >>= fun u => modifyFlags (g u) >>= fun _ => writeLoc w l v) s =
      .ok ((), (s.drawn.withFlags (g s.free)).locStore w l v) := by
  simp only [bind_run, draw_run, modifyFlags_run]
  exact writeLoc_run_agree ((agree_drawn s).trans (agree_withFlags _ _)) hp hw v

theorem shiftRM_run {op : ShiftOp} (h : s.canShift w (locate s rm) n = true) :
    seqInstr (shiftRM op w rm n) s = .next (s.shifted op w (locate s rm) n) := by
  obtain ⟨hp, hr, hw⟩ := canShift_iff.1 h
  unfold State.shifted
  split
  · next h0 =>
    refine seqInstr_ok hp ?_
    simp only [shiftRM, bind_run, get_run, readLoc_run hp hr, h0, if_true, pure_run]
  · next h0 =>
    refine seqInstr_ok hp ?_
    simp only [shiftRM, bind_run (get : Exec State), get_run, bind_run (readLoc _ _), readLoc_run hp hr, h0, if_false]
    exact drawFlagsWrite_run hp (hw h0) (fun u => shiftFlags op u _ _) _

theorem doubleShiftRM_run {left : Bool} {r : Reg} (h : s.canShift w (locate s rm) n = true) :
    seqInstr (doubleShiftRM left w rm r n) s =
      .next (s.doubleShifted left w (locate s rm) (s.view w r) n) := by
  obtain ⟨hp, hr, hw⟩ := canShift_iff.1 h
  unfold State.doubleShifted
  split
  · next h0 =>
    refine seqInstr_ok hp ?_
    simp only [doubleShiftRM, bind_run, get_run, readLoc_run hp hr, readReg_run, h0, if_true, pure_run]
  · next h0 =>
    split
    · next hbig =>
      refine seqInstr_ok hp ?_
      simp only [doubleShiftRM, bind_run (get : Exec State), get_run, bind_run (readLoc _ _), readLoc_run hp hr,
        bind_run (readReg _ _), readReg_run, h0, hbig, if_false, if_true, bind_run draw (fun v => draw >>= _), draw_run]
      exact drawFlagsWrite_run (s := s.drawn) hp (((agree_drawn s).locWritable _ _).trans (hw h0)) undefinedFlags _
    · next hbig =>
      refine seqInstr_ok hp ?_
      simp only [doubleShiftRM, bind_run (get : Exec State), get_run, bind_run (readLoc _ _), readLoc_run hp hr,
        bind_run (readReg _ _), readReg_run, h0, hbig, if_false]
      exact drawFlagsWrite_run hp (hw h0) (fun u => doubleShiftFlags left u _ _ _) _

/-- The six forms run as their operation does (41_logic_shift R266). -/
theorem ShiftForms.Does.runs {f : ShiftForms} {op : ShiftOp} (h : f.Does op) : f.Runs op :=
  ⟨fun s rm ib hc => (h.rm8Ib rm ib s).trans (shiftRM_run hc), fun s rm ib hc => (h.rmvIb rm ib s).trans (shiftRM_run hc),
    fun s rm hc => (h.rm8One rm s).trans (shiftRM_run hc), fun s rm hc => (h.rmvOne rm s).trans (shiftRM_run hc),
    fun s rm hc => (h.rm8Cl rm s).trans (shiftRM_run hc), fun s rm hc => (h.rmvCl rm s).trans (shiftRM_run hc)⟩

/-- Settles O5: the six forms of each operation are its shape with a count, and so are the two forms of SHLD and of SHRD. -/
theorem shiftsRun : Obligations.ShiftsRun := by
  unfold Obligations.ShiftsRun
  exact ⟨rol_does.runs, ror_does.runs, rcl_does.runs, rcr_does.runs, shl_does.runs, shr_does.runs, sar_does.runs,
    fun _ _ _ _ h => ⟨doubleShiftRM_run h, doubleShiftRM_run h⟩, fun _ _ _ h => ⟨doubleShiftRM_run h, doubleShiftRM_run h⟩⟩

end Sys2Proof.Machine
end

section
/-! PROOF. The result, the carry and the other flags of each shift and rotate, bit by bit (41_logic_shift R267 to R275): a
rotate is the library's rotation of the operand, or of CF ++ operand, and bit k of a rotation is found modulo its width. -/

namespace Sys2Proof.Machine

section
variable {w k c : Nat} (a b : BitVec w) (cf : Bool) (u fl : Word)

/-! ### Rotates -/

theorem getLsbD_rotateRight_add_mod (hk : k < w) : (a.rotateRight c).getLsbD k = a.getLsbD ((k + c) % w) := by
  have hc : c % w < w := Nat.mod_lt c (by omega)
  rw [BitVec.getLsbD_rotateRight, Nat.add_mod_eq_ite, Nat.mod_eq_of_lt hk]
  by_cases hwrap : w ≤ k + c % w
  · rw [if_pos hwrap, decide_eq_false (by omega), decide_eq_true hk, show k - (w - c % w) = k + c % w - w by omega]
    rfl
  · rw [if_neg hwrap, decide_eq_true (by omega), Nat.add_comm]
    rfl

theorem getLsbD_rotateLeft_add_mod (hk : k < w) : (a.rotateLeft c).getLsbD ((k + c) % w) = a.getLsbD k := by
  have hc : c % w < w := Nat.mod_lt c (by omega)
  rw [BitVec.getLsbD_rotateLeft, Nat.add_mod_eq_ite, Nat.mod_eq_of_lt hk]
  by_cases hwrap : w ≤ k + c % w
  · rw [if_pos hwrap, decide_eq_true (by omega), show w - c % w + (k + c % w - w) = k by omega]
    rfl
  · rw [if_neg hwrap, decide_eq_false (by omega), decide_eq_true (by omega), Nat.add_sub_cancel]
    rfl

/-- ROL is the library's rotation to the left (41_logic_shift R267). -/
theorem getLsbD_shiftResult_rol (hk : k < w) : (shiftResult .rol a c cf).getLsbD ((k + c) % w) = a.getLsbD k :=
  getLsbD_rotateLeft_add_mod a hk

/-- ROR is the library's rotation to the right (41_logic_shift R268). -/
theorem getLsbD_shiftResult_ror (hk : k < w) : (shiftResult .ror a c cf).getLsbD k = a.getLsbD ((k + c) % w) :=
  getLsbD_rotateRight_add_mod a hk

theorem withCarry_eq_cons : withCarry cf a = a.cons cf := by
  rw [withCarry, ← BitVec.setWidth_cast (h := Nat.add_comm 1 w), BitVec.setWidth_eq]
  rfl

theorem carryRotated_left : carryRotated true cf a c = (a.cons cf).rotateLeft c := by
  rw [carryRotated, if_pos rfl, BitVec.rotateLeft_mod_eq_rotateLeft, withCarry_eq_cons]

theorem carryRotated_right : carryRotated false cf a c = (a.cons cf).rotateRight c := by
  rw [carryRotated, if_neg Bool.false_ne_true, BitVec.rotateRight_mod_eq_rotateRight, withCarry_eq_cons]

/-- The top bit of w + 1 bits, which RCL and RCR leave in CF, and the bits below, which they leave in the destination. -/
theorem top_or_getLsbD_setWidth (x : BitVec (w + 1)) (hk : k ≤ w) :
    (if k = w then x.getLsbD w else (x.setWidth w).getLsbD k) = x.getLsbD k := by
  split
  · next h => rw [h]
  · next h => rw [BitVec.getLsbD_setWidth, decide_eq_true (by omega), Bool.true_and]

/-- RCL moves each bit of CF ++ operand up by c places modulo w + 1 (41_logic_shift R269). -/
theorem rcl_bit (hk : k ≤ w) :
    (if (k + c) % (w + 1) = w then shiftCarry .rcl u a c cf
      else (shiftResult .rcl a c cf).getLsbD ((k + c) % (w + 1))) = if k = w then cf else a.getLsbD k := by
  have hj : (k + c) % (w + 1) ≤ w := Nat.le_of_lt_succ (Nat.mod_lt _ w.succ_pos)
  rw [shiftCarry, shiftResult, carryRotated_left, top_or_getLsbD_setWidth _ hj,
    getLsbD_rotateLeft_add_mod _ (Nat.lt_succ_of_le hk), BitVec.getLsbD_cons]

/-- RCR moves each bit of CF ++ operand down by c places modulo w + 1 (41_logic_shift R270). -/
theorem rcr_bit (hk : k ≤ w) :
    (if k = w then shiftCarry .rcr u a c cf else (shiftResult .rcr a c cf).getLsbD k) =
      if (k + c) % (w + 1) = w then cf else a.getLsbD ((k + c) % (w + 1)) := by
  rw [shiftCarry, shiftResult, carryRotated_right, top_or_getLsbD_setWidth _ hk,
    getLsbD_rotateRight_add_mod _ (Nat.lt_succ_of_le hk), BitVec.getLsbD_cons]

/-! ### Shifts -/

theorem getLsbD_shiftResult_shl (hk : k < w) :
    (shiftResult .shl a c cf).getLsbD k = (decide (c ≤ k) && a.getLsbD (k - c)) := by
  rw [shiftResult, BitVec.getLsbD_shiftLeft, decide_eq_true hk, Bool.true_and, ← decide_not, decide_eq_decide.2 Nat.not_lt]

theorem getLsbD_shiftResult_shr : (shiftResult .shr a c cf).getLsbD k = a.getLsbD (k + c) := by
  rw [shiftResult, BitVec.getLsbD_ushiftRight, Nat.add_comm]

/-- SAR moves copies of the top bit in (41_logic_shift R273). -/
theorem getLsbD_shiftResult_sar (hk : k < w) :
    (shiftResult .sar a c cf).getLsbD k = a.getLsbD (min (k + c) (w - 1)) := by
  rw [shiftResult, BitVec.getLsbD_sshiftRight, decide_eq_false (Nat.not_le.2 hk), Bool.not_false, Bool.true_and]
  split
  · next hin => congr 1; omega
  · next hout => rw [BitVec.msb_eq_getLsbD_last]; congr 1; omega

theorem getLsbD_doubleShiftResult_left (hk : k < w) (hc : c ≤ w) :
    (doubleShiftResult true a b c).getLsbD k = if c ≤ k then a.getLsbD (k - c) else b.getLsbD (w + k - c) := by
  rw [doubleShiftResult, if_pos rfl, BitVec.getLsbD_extractLsb', BitVec.getLsbD_shiftLeft, BitVec.getLsbD_append,
    decide_eq_true hk, decide_eq_true (by omega : w + k < w + w), decide_eq_false (by omega : ¬w + k < c)]
  by_cases hck : c ≤ k
  · rw [if_neg (by omega), if_pos hck, show w + k - c - w = k - c by omega]
    rfl
  · rw [if_pos (by omega), if_neg hck]
    rfl

theorem getLsbD_doubleShiftResult_right (hk : k < w) :
    (doubleShiftResult false a b c).getLsbD k = if k + c < w then a.getLsbD (k + c) else b.getLsbD (k + c - w) := by
  rw [doubleShiftResult, if_neg Bool.false_ne_true, BitVec.getLsbD_extractLsb', BitVec.getLsbD_ushiftRight,
    BitVec.getLsbD_append, decide_eq_true hk, Bool.true_and, Nat.zero_add, Nat.add_comm c k]

/-! ### Flags -/

/-- The flags of a rotate (41_logic_shift R267 to R270). -/
theorem getLsbD_setRotateStatus (of : Bool) :
    (setFlag .cf cf (setFlag .of of fl)).getLsbD k = if k = 0 then cf else if k = 11 then of else fl.getLsbD k := by
  rw [getLsbD_setFlag, getLsbD_setFlag]
  rfl

/-- The flags of a shift: those of its result, AF being set before them (41_logic_shift R271 to R275). -/
theorem getLsbD_setShiftStatus (r : BitVec w) (af of : Bool) :
    (setFlag .cf cf (setFlag .of of (zsp r (setFlag .af af fl)))).getLsbD k = statusBit fl k r cf af of := by
  simp only [zsp, getLsbD_setFlag, Flag.pos, evenParity_eq, BitVec.msb_eq_getLsbD_last, statusBit]
  grind

/-- Among the status flags it does not matter which is looked up first. -/
theorem statusBit_overflow_second (r : BitVec w) (af of : Bool) :
    statusBit fl k r cf af of =
      if k = 0 then cf else if k = 11 then of
      else if k = 2 then decide ((List.range 8).countP (fun i => r.getLsbD i) % 2 = 0)
      else if k = 4 then af else if k = 6 then decide (r = 0) else if k = 7 then r.getLsbD (w - 1) else fl.getLsbD k := by
  unfold statusBit
  grind

/-- OF after a shift or rotate, undefined unless by one (41_logic_shift R267 to R273). -/
def shiftOverflow (op : ShiftOp) (u : Word) (a : BitVec w) (c : Nat) (cf : Bool) : Bool :=
  if c = 1 then shiftOverflowOne op a (shiftResult op a c cf) (shiftCarry op u a c cf) else getFlag .of u

/-- Rotates write CF and OF only, shifts all six status flags. -/
theorem getLsbD_shiftFlags (op : ShiftOp) (hcf : cf = fl.getLsbD 0) :
    (shiftFlags op u a c fl).getLsbD k =
      if op = .rol ∨ op = .ror ∨ op = .rcl ∨ op = .rcr then
        if k = 0 then shiftCarry op u a c cf else if k = 11 then shiftOverflow op u a c cf else fl.getLsbD k
      else statusBit fl k (shiftResult op a c cf) (shiftCarry op u a c cf) (u.getLsbD 4) (shiftOverflow op u a c cf) := by
  subst hcf
  cases op
  case rol | ror | rcl | rcr => exact (getLsbD_setRotateStatus ..).trans (if_pos (by decide)).symm
  case shl | shr | sar => exact (getLsbD_setShiftStatus ..).trans (if_neg (by decide)).symm

theorem getLsbD_doubleShiftFlags (left : Bool) :
    (doubleShiftFlags left u a b c fl).getLsbD k =
      statusBit fl k (doubleShiftResult left a b c) (if left then a.getLsbD (w - c) else a.getLsbD (c - 1)) (u.getLsbD 4)
        (if c = 1 then (doubleShiftResult left a b c).msb != a.msb else u.getLsbD 11) :=
  getLsbD_setShiftStatus ..

end

/-- Settles O52: each result bit is found where the operation moved it from, and each flag image is a chain of single flag
writes. -/
theorem shiftResults : Obligations.ShiftResults := by
  unfold Obligations.ShiftResults
  intro w a c cf u fl _ _ hcf
  refine ⟨fun k hk => ⟨getLsbD_shiftResult_rol a cf hk, getLsbD_shiftResult_ror a cf hk, getLsbD_shiftResult_shl a cf hk,
    getLsbD_shiftResult_shr a cf, getLsbD_shiftResult_sar a cf hk⟩, ?_, rfl, rfl, rfl, rfl, rfl, ?_, ?_⟩
  · rintro k hk x rfl
    exact ⟨rcl_bit a cf u hk, rcr_bit a cf u hk⟩
  · rintro op k r of rfl hof
    have hof : of = shiftOverflow op u a c cf := by
      rw [hof, ite_not, shiftOverflow]
      cases op <;> rfl
    rw [getLsbD_shiftFlags a cf u fl op hcf, statusBit_overflow_second, hof]
    split <;> rfl
  · intro b _ hcw
    refine ⟨fun k hk => ⟨getLsbD_doubleShiftResult_left a b hk hcw, getLsbD_doubleShiftResult_right a b hk⟩, ?_⟩
    rintro left k r rfl
    rw [getLsbD_doubleShiftFlags, statusBit_overflow_second, BitVec.msb_eq_getLsbD_last, BitVec.msb_eq_getLsbD_last]

end Sys2Proof.Machine
end

section
/-! PROOF. String instructions and port I/O (42_string_io R300 to R321): a string step is an empty count or one element, and
each body and each port access runs to one named state. -/

namespace Sys2Proof.Machine

/-! ### A string step (42_string_io R301) -/

/-- With an empty count EIP moves on; else the element is processed, counted, and the repetition ends or not. -/
theorem stringStep_run (body : Exec Unit) (zterm : Bool) (s : State) :
    stringStep body zterm s =
      if s.repeatEmpty then .ok ((), s.advanced) else (body >>= fun _ => modify fun t => s.stringDone t zterm) s := by
  simp only [stringStep, bind_run, get_run, State.repeatEmpty, State.stringDone]
  cases repeatOf s.ctx.pfx .none with
  | none => rw [bne_self_eq_false, Bool.false_and, if_neg Bool.false_ne_true]; exact bind_run body _ s
  | rep | repne =>
    by_cases hcount : indexValue s .ecx = 0
    · simp [hcount, State.advanced]
    · simp only [hcount, beq_eq_false_iff_ne.2 hcount, Bool.and_false, Bool.false_eq_true, if_false, repeatStep, bind_run]
      cases body s with
      | error e => rfl
      | ok v =>
        simp only [modify_run, get_run]
        split <;> rfl

theorem stringStep_ok {body : Exec Unit} {zterm : Bool} {s t : State} {a : Unit}
    (h : stringStep body zterm s = .ok (a, t)) :
    t = s.advanced ∨ ∃ u, body s = .ok ((), u) ∧ t = s.stringDone u zterm := by
  rw [stringStep_run] at h
  split at h
  · cases h; exact .inl rfl
  · obtain ⟨_, u, hbody, hdone⟩ := bind_ok.1 h
    cases hdone
    exact .inr ⟨u, hbody, rfl⟩

/-- An instruction that is a string step runs as soon as its body does. -/
theorem stringRuns_of_body {i : Instr} {body : State → Exec Unit} {can : State → Bool} {element : State → State}
    {zterm : Bool} (hi : ∀ s, exec i s = runInstr (stringStep (body s) zterm) s)
    (hbody : ∀ s, s.plainWalks = true → can s = true → body s s = .ok ((), element s)) :
    StringRuns i can element zterm := by
  intro s hw
  have hrun := fun t (h : stringStep (body s) zterm s = .ok ((), t)) => (hi s).trans (runInstr_ok hw h)
  refine ⟨fun hempty => hrun _ ?_, fun hcount hcan => hrun _ ?_⟩
  · rw [stringStep_run, if_pos hempty]
  · rw [stringStep_run, hcount, if_neg Bool.false_ne_true]
    exact bind_ok.2 ⟨_, _, hbody s hw hcan, rfl⟩

/-! ### Elements and indices (42_string_io R300) -/

theorem advanceIndex_run (w : Size) (r : Reg) (s : State) : advanceIndex w r s = .ok ((), s.stepIndex w r) := rfl

section
variable {s : State} {w : Size} (hw : s.plainWalks = true)
include hw

theorem readSource_run (h : s.canSource w = true) : readSource w s = .ok (s.source w, s) := by
  rw [State.canSource, State.sourceSeg] at h
  simp only [readSource, bind_run, get_run, segRead_run hw h]
  rfl

theorem readDest_run (h : s.canDestRead w = true) : readDest w s = .ok (s.dest w, s) := by
  rw [State.canDestRead] at h
  simp only [readDest, bind_run, get_run, segRead_run hw h]
  rfl

theorem writeDest_run (h : s.canDestWrite w = true) (v : BitVec w.bits) : writeDest w v s = .ok ((), s.storeDest w v) :=
  segWrite_run hw _ h

end

/-! ### MOVS, CMPS, STOS, LODS and SCAS (42_string_io R302 to R306) -/

section
variable {i : Instr} {size : State → Size}

theorem movs_runs (hi : ∀ s, exec i s = runInstr (stringStep (movsBody (size s)) false) s) :
    StringRuns i (fun s => s.canSource (size s) && s.canDestWrite (size s))
      (fun s => ((s.storeDest (size s) (s.source (size s))).stepIndex (size s) .esi).stepIndex (size s) .edi) false := by
  refine stringRuns_of_body hi fun s hw h => ?_
  obtain ⟨hsource, hdest⟩ := Bool.and_eq_true_iff.1 h
  simp only [movsBody, bind_run, readSource_run hw hsource, writeDest_run hw hdest, advanceIndex_run]

theorem cmps_runs (hi : ∀ s, exec i s = runInstr (stringStep (cmpsBody (size s)) true) s) :
    StringRuns i (fun s => s.canSource (size s) && s.canDestRead (size s))
      (fun s => ((s.withFlags (subFlags (s.source (size s)) (s.dest (size s)) false)).stepIndex (size s) .esi).stepIndex
        (size s) .edi) true := by
  refine stringRuns_of_body hi fun s hw h => ?_
  obtain ⟨hsource, hdest⟩ := Bool.and_eq_true_iff.1 h
  simp only [cmpsBody, bind_run, readSource_run hw hsource, readDest_run hw hdest, comp_sub _ _ _ s, advanceIndex_run]
  rfl

theorem stos_runs (hi : ∀ s, exec i s = runInstr (stringStep (stosBody (size s)) false) s) :
    StringRuns i (fun s => s.canDestWrite (size s))
      (fun s => (s.storeDest (size s) (s.view (size s) .eax)).stepIndex (size s) .edi) false := by
  refine stringRuns_of_body hi fun s hw h => ?_
  simp only [stosBody, bind_run, readReg_run, writeDest_run hw h, advanceIndex_run]

theorem lods_runs (hi : ∀ s, exec i s = runInstr (stringStep (lodsBody (size s)) false) s) :
    StringRuns i (fun s => s.canSource (size s))
      (fun s => (s.setView (size s) .eax (s.source (size s))).stepIndex (size s) .esi) false := by
  refine stringRuns_of_body hi fun s hw h => ?_
  simp only [lodsBody, bind_run, readSource_run hw h, writeReg_run, advanceIndex_run]

theorem scas_runs (hi : ∀ s, exec i s = runInstr (stringStep (scasBody (size s)) true) s) :
    StringRuns i (fun s => s.canDestRead (size s))
      (fun s => (s.withFlags (subFlags (s.view (size s) .eax) (s.dest (size s)) false)).stepIndex (size s) .edi) true := by
  refine stringRuns_of_body hi fun s hw h => ?_
  simp only [scasBody, bind_run, readReg_run, readDest_run hw h, comp_sub _ _ _ s, advanceIndex_run]
  rfl

end

/-- Settles O6: each instruction is a string step of its body, in its byte form and in the operand size. -/
theorem stringsRun : Obligations.StringsRun := by
  unfold Obligations.StringsRun
  intro w movs cmps stos lods scas size hforms
  obtain ⟨-, rfl, rfl, rfl, rfl, rfl, rfl⟩ | ⟨rfl, rfl, rfl, rfl, rfl, rfl⟩ := hforms <;>
    exact ⟨movs_runs fun _ => rfl, cmps_runs fun _ => rfl, stos_runs fun _ => rfl, lods_runs fun _ => rfl,
      scas_runs fun _ => rfl⟩

/-! ### Port accesses (42_string_io R318) -/

section
variable {s : State} {w : Size}

theorem portRead_run (port : Half) (w : Size) (s : State) :
    portRead port w s = .ok (s.portValue port w, s.portTouched port w) := by
  simp only [portRead, bind_run, get_run, State.portValue, State.portTouched]
  split <;> rfl

theorem portWrite_run (port : Half) (w : Size) (v : Word) (s : State) :
    portWrite port w v s = .ok ((), s.portWritten port w v) := by
  simp only [portWrite, bind_run, get_run, State.portWritten]
  split <;> rfl

/-- PortIn returns the value of its size; two word reads make up 32 bits. -/
theorem portIn_run (port : Half) (w : Size) (s : State) :
    ∃ v, portIn port w s = .ok (v, s.portsRead port w) ∧ v.setWidth w.bits = s.inValue port w := by
  cases w with
  | b8 => exact ⟨_, portRead_run port .b8 s, rfl⟩
  | b16 => exact ⟨_, portRead_run port .b16 s, rfl⟩
  | b32 =>
    refine ⟨s.inValue port .b32, ?_, BitVec.setWidth_eq _⟩
    simp only [portIn, bind_run, portRead_run, pure_run]
    rfl

theorem portOut_run (port : Half) (w : Size) (v : BitVec w.bits) (s : State) :
    portOut port w (v.setWidth 32) s = .ok ((), s.portsWritten port w v) := by
  cases w with
  | b8 => exact portWrite_run port .b8 _ s
  | b16 => exact portWrite_run port .b16 _ s
  | b32 =>
    have hv : v.setWidth 32 = v := BitVec.setWidth_eq v
    simp only [portOut, bind_run, portWrite_run, hv]
    rfl

theorem ioCheck_run (h : s.ioPriv = true) : ioCheck s = .ok ((), s) := by
  simp only [ioCheck, bind_run, get_run, h, check_true]

theorem agree_portTouched (port : Half) (w : Size) (s : State) : Agree s (s.portTouched port w) := by
  unfold State.portTouched
  split <;> exact ⟨rfl, rfl, rfl, rfl, rfl⟩

theorem agree_portsRead (port : Half) (w : Size) (s : State) : Agree s (s.portsRead port w) := by
  cases w with
  | b8 | b16 => exact agree_portTouched port _ s
  | b32 => exact (agree_portTouched port _ s).trans (agree_portTouched _ _ _)

theorem portTouched_indexValue (port : Half) (w : Size) (s : State) (r : Reg) :
    indexValue (s.portTouched port w) r = indexValue s r := by
  unfold State.portTouched
  split <;> rfl

theorem portsRead_indexValue (port : Half) (w : Size) (s : State) (r : Reg) :
    indexValue (s.portsRead port w) r = indexValue s r := by
  cases w <;> simp only [State.portsRead, portTouched_indexValue]

/-- A port read does not matter for the store of the element that it gave. -/
theorem portsRead_canDestWrite (port : Half) (w v : Size) (s : State) :
    (s.portsRead port w).canDestWrite v = s.canDestWrite v := by
  rw [State.canDestWrite, portsRead_indexValue, (agree_portsRead port w s).writable, State.canDestWrite]

/-! ### INS, OUTS, IN and OUT (42_string_io R307, R308, R320, R321) -/

theorem checkPresent_run {ps : List Word} (h : s.inRam ps = true) : checkPresent ps s = .ok ((), s) := by
  induction ps with
  | nil => rfl
  | cons p ps ih =>
    obtain ⟨hp, hps⟩ := Bool.and_eq_true_iff.1 h
    simp only [checkPresent, bind_run, get_run, hp, check_true, ih hps]

/-- The checks of a write pass where the write would succeed (42_string_io R307). -/
theorem checkSegWrite_run (hw : s.plainWalks = true) {r : SReg} {off : Word} {n : Nat} (h : s.writable r off n = true) :
    checkSegWrite r off n s = .ok ((), s) := by
  obtain ⟨-, hbacked⟩ := Bool.and_eq_true_iff.1 h
  obtain ⟨ps, hps, hram⟩ := State.backed_some hbacked
  rw [State.linear] at hps
  simp only [checkSegWrite, bind_run, checkSegment_write h, get_run, translates_run hw hps, checkPresent_run hram]

variable {i : Instr} {size : State → Size} {port : State → Half}

theorem ins_runs (hi : ∀ s, exec i s = runInstr (stringStep (insBody (size s)) false) s) :
    StringRuns i (fun s => s.ioPriv && s.canDestWrite (size s))
      (fun s => ((s.portsRead (s.view .b16 .edx) (size s)).storeDest (size s)
        (s.inValue (s.view .b16 .edx) (size s))).stepIndex (size s) .edi) false := by
  refine stringRuns_of_body hi fun s hw h => ?_
  obtain ⟨hio, hdest⟩ := Bool.and_eq_true_iff.1 h
  obtain ⟨v, hin, hv⟩ := portIn_run (s.view .b16 .edx) (size s) s
  have hw' := (agree_portsRead (s.view .b16 .edx) (size s) s).plainWalks.trans hw
  have hdest' := (portsRead_canDestWrite (s.view .b16 .edx) (size s) (size s) s).trans hdest
  simp only [insBody, bind_run, ioCheck_run hio, get_run, checkSegWrite_run hw hdest, hin, hv, writeDest_run hw' hdest',
    advanceIndex_run]

theorem outs_runs (hi : ∀ s, exec i s = runInstr (stringStep (outsBody (size s)) false) s) :
    StringRuns i (fun s => s.ioPriv && s.canSource (size s))
      (fun s => (s.portsWritten (s.view .b16 .edx) (size s) (s.source (size s))).stepIndex (size s) .esi) false := by
  refine stringRuns_of_body hi fun s hw h => ?_
  obtain ⟨hio, hsource⟩ := Bool.and_eq_true_iff.1 h
  simp only [outsBody, bind_run, ioCheck_run hio, readSource_run hw hsource, get_run, portOut_run, advanceIndex_run]

theorem in_runs (hi : ∀ s, exec i s = seqInstr (inPort (size s) (port s)) s) : InRuns i size port := by
  intro s hw hio
  refine (hi s).trans (seqInstr_ok hw ?_)
  obtain ⟨v, hin, hv⟩ := portIn_run (port s) (size s) s
  simp only [inPort, bind_run, ioCheck_run hio, hin, hv, writeReg_run]

theorem out_runs (hi : ∀ s, exec i s = seqInstr (outPort (size s) (port s)) s) : OutRuns i size port := by
  intro s hw hio
  refine (hi s).trans (seqInstr_ok hw ?_)
  simp only [outPort, bind_run, ioCheck_run hio, readReg_run, portOut_run]

end

/-- Settles O7: INS and OUTS are string steps and IN and OUT plain bodies around the port accesses. -/
theorem portsRun : Obligations.PortsRun := by
  unfold Obligations.PortsRun
  exact ⟨ins_runs fun _ => rfl, ins_runs fun _ => rfl, outs_runs fun _ => rfl, outs_runs fun _ => rfl,
    fun _ => ⟨in_runs fun _ => rfl, in_runs fun _ => rfl, out_runs fun _ => rfl, out_runs fun _ => rfl⟩,
    in_runs fun _ => rfl, in_runs fun _ => rfl, out_runs fun _ => rfl, out_runs fun _ => rfl⟩

end Sys2Proof.Machine
end

section
/-! PROOF. What string and port instructions leave alone (42_string_io R300 to R321): device calls apart, a body changes
registers and flags of its frame, and memory only by the one store to its destination element. -/

namespace Sys2Proof.Machine

variable {α : Type}

/-! ### Changes with device calls -/

/-- Device calls are added, and nothing else changes but registers, the flags of a mask, EIP and the count of draws. -/
def Calls (regs : List Reg) (mask : Word) (s t : State) : Prop :=
  Changes regs mask s { t with events := s.events } ∧ s.events <+: t.events

section
variable {regs : List Reg} {mask : Word} {s t : State}

theorem Changes.withEvents (h : Changes regs mask s t) (es : List HostEvent) :
    Changes regs mask { s with events := es } { t with events := es } :=
  ⟨h.regs, h.segs, h.flags, h.mem, h.system, rfl⟩

theorem Changes.calls (h : Changes regs mask s t) : Calls regs mask s t :=
  ⟨h.withEvents s.events, h.events ▸ List.prefix_rfl⟩

theorem calls_preserved (regs : List Reg) (mask : Word) : Preserved (Calls regs mask) where
  refl := fun s => ((changes_preserved regs mask).refl s).calls
  trans := fun s _ _ ⟨h, hes⟩ ⟨k, kes⟩ =>
    ⟨(changes_preserved regs mask).trans _ _ _ h (k.withEvents s.events), hes.trans kes⟩

theorem calls_event : OfEvent (Calls regs mask) :=
  fun s _ => ⟨(changes_preserved regs mask).refl s, List.prefix_append _ _⟩

theorem calls_mark : OfMark (Calls regs mask) := fun s a v had ha => (changes_mark s a v had ha).calls

theorem calls_draw : OfDraw (Calls regs mask) := fun s => (changes_draw s).calls

theorem calls_eip : OfEip (Calls regs mask) := fun s v => (changes_eip s v).calls

theorem calls_reg {r : Reg} (hr : r ∈ regs) : OfReg (Calls regs mask) r := fun s v => (changes_reg hr s v).calls

/-- What a port instruction may change that takes no exception. -/
def Frame.keepsCalls (f : Frame) (s t : State) : Prop :=
  f.holds s t ∧ SameSystem s t ∧ s.events <+: t.events

theorem Calls.keepsCalls (h : Calls regs mask s t) (stores : List Store) :
    (⟨regs, [], mask, stores⟩ : Frame).keepsCalls s t :=
  have ⟨hholds, hsystem, _⟩ := h.1.keeps stores
  ⟨hholds, hsystem, h.2⟩

/-- Device calls do not matter for memory accesses, nor do the changes with them when page walks write nothing. -/
theorem Calls.agree (h : Calls regs mask s t) (hw : s.plainWalks = true) : Agree s t :=
  have ⟨hcr0, hcr3, hmem, hparams, hsegs⟩ := h.1.agree hw
  ⟨hcr0, hcr3, hmem, hparams, hsegs⟩

/-- An index or count register is read by the address size of the instruction (42_string_io R300). -/
theorem Calls.indexValue (h : Calls [] mask s t) (r : Reg) : indexValue t r = indexValue s r := by
  have hreg : t.reg = s.reg := funext fun r => h.1.regs r (by simp)
  obtain ⟨-, -, hctx, -⟩ := h.1.fields
  replace hctx : t.ctx = s.ctx := hctx
  rw [Machine.indexValue, hctx, Machine.indexValue]
  cases s.ctx.asz <;> simp only [State.view, hreg]

/-! ### Instructions that store nothing -/

variable {i : Instr} {body : Exec Unit}

theorem framed_of_run (hi : exec i s = runInstr body s) (hk : Keeps (Changes regs mask) body) :
    Framed i s ⟨regs, [], mask, []⟩ := fun _ ht =>
  (runInstr_next (changes_preserved _ _) changes_mark hk (hi ▸ ht)).symm.imp_right fun h => h.keeps []

theorem framedPort_of_run (hi : exec i s = runInstr body s) (hk : Keeps (Calls regs mask) body) :
    FramedPort i s ⟨regs, [], mask, []⟩ := fun _ ht =>
  (runInstr_next (calls_preserved _ _) calls_mark hk (hi ▸ ht)).symm.imp_right fun h => h.keepsCalls []

theorem framedPort_of_seq (hi : exec i s = seqInstr body s) (hk : Keeps (Calls regs mask) body) :
    FramedPort i s ⟨regs, [], mask, []⟩ :=
  framedPort_of_run hi (.bind (calls_preserved _ _) hk fun _ => advance_keeps calls_eip)

theorem framed_of_string {zterm : Bool} (hi : exec i s = runInstr (stringStep body zterm) s) (hc : .ecx ∈ regs)
    (hk : Keeps (Changes regs mask) body) : Framed i s ⟨regs, [], mask, []⟩ :=
  framed_of_run hi (stringStep_keeps (changes_preserved _ _) (changes_reg hc) changes_eip hk zterm)

end

/-! ### The store of the destination element -/

section
variable {s t u : State} {regs : List Reg} {w : Size}

/-- Device calls and changes of registers, with a store of the destination element among them. -/
def StoresDest (regs : List Reg) (w : Size) (s t : State) : Prop :=
  (⟨regs, [], 0, [s.segStore .es (indexValue s .edi) w.bytes]⟩ : Frame).keepsCalls s t

theorem Calls.storesDest (h : Calls regs 0 s t) : StoresDest regs w s t := h.keepsCalls _

theorem writeDest_storesDest (v : BitVec w.bits) : Keeps (StoresDest regs w) (writeDest w v) := by
  intro s a t h
  have hrefl := (changes_preserved [] 0).refl s
  obtain ⟨⟨hregs, hsegs, hflags, hmem⟩, hsystem, hevents⟩ :=
    writeLoc_frame (w := w) (l := .mem .es (indexValue s .edi)) hrefl h
  exact ⟨⟨fun q _ => hregs q List.not_mem_nil, hsegs, hflags, hmem⟩, hsystem, hevents ▸ List.prefix_rfl⟩

/-- A store has the same bytes in states that access memory alike (20_memory R130). -/
theorem Agree.segStore_covers (h : Agree s u) (g : SReg) (off : Word) (n a : Nat) :
    (u.segStore g off n).covers a = (s.segStore g off n).covers a := by
  simp only [State.segStore, Store.covers, h.user, h.linear, physAll_agree h.cr0 h.cr3 h.mem h.params]

theorem SameSystem.plainWalks (h : SameSystem s t) : t.plainWalks = s.plainWalks := by
  simp only [SameSystem] at h
  simp only [State.plainWalks, h]

/-- Before the store nothing changes that its address depends on. -/
theorem Calls.thenStoresDest (hsu : Calls [] 0 s u) (hut : StoresDest regs w u t) : StoresDest regs w s t := by
  obtain ⟨⟨hregs, hsegs, hflags, hmem⟩, hsystem, hevents⟩ := hut
  refine ⟨⟨fun q hq => (hregs q hq).trans (hsu.1.regs q List.not_mem_nil),
    fun q hq => (hsegs q hq).trans (congrArg (·.get q) hsu.1.segs), hflags.trans hsu.1.flags, fun hw a ha => ?_⟩,
    SameSystem.trans (t := u) hsu.1.system hsystem, hsu.2.trans hevents⟩
  have hagree := hsu.agree hw
  refine (hmem (hagree.plainWalks.trans hw) a fun st hst => ?_).trans (by rw [hagree.mem])
  rw [List.mem_singleton.1 hst, hagree.segStore_covers, hsu.indexValue]
  exact ha _ (List.mem_singleton.2 rfl)

theorem StoresDest.thenCalls (hsu : StoresDest regs w s u) (hut : Calls regs 0 u t) : StoresDest regs w s t := by
  obtain ⟨⟨hregs, hsegs, hflags, hmem⟩, hsystem, hevents⟩ := hsu
  refine ⟨⟨fun q hq => (hut.1.regs q hq).trans (hregs q hq),
    fun q hq => (congrArg (·.get q) hut.1.segs).trans (hsegs q hq), hut.1.flags.trans hflags, fun hw a ha => ?_⟩, hsystem.trans hut.1.system, hevents.trans hut.2⟩
  rw [(hut.agree (hsystem.plainWalks.trans hw)).mem, hmem hw a ha]

theorem Keeps.callsStoresDest {x : Exec α} {f : α → Exec Unit} (hx : Keeps (Calls [] 0) x)
    (hf : ∀ a, Keeps (StoresDest regs w) (f a)) : Keeps (StoresDest regs w) (x >>= f) := by
  intro s b t h
  obtain ⟨a, u, h1, h2⟩ := bind_ok.1 h
  exact (hx s a u h1).thenStoresDest (hf a u b t h2)

theorem Keeps.storesDestCalls {x : Exec α} {f : α → Exec Unit} (hx : Keeps (StoresDest regs w) x)
    (hf : ∀ a, Keeps (Calls regs 0) (f a)) : Keeps (StoresDest regs w) (x >>= f) := by
  intro s b t h
  obtain ⟨a, u, h1, h2⟩ := bind_ok.1 h
  exact (hx s a u h1).thenCalls (hf a u b t h2)

theorem advanceIndex_calls {r : Reg} (hr : r ∈ regs) (w : Size) : Keeps (Calls regs 0) (advanceIndex w r) :=
  advanceIndex_keeps (calls_reg hr) w

theorem movsBody_storesDest (hsi : .esi ∈ regs) (hdi : .edi ∈ regs) (w : Size) :
    Keeps (StoresDest regs w) (movsBody w) :=
  .callsStoresDest (readSource_keeps (calls_preserved _ _) calls_mark w) fun v =>
    .storesDestCalls (writeDest_storesDest v) fun _ =>
      .bind (calls_preserved _ _) (advanceIndex_calls hsi w) fun _ => advanceIndex_calls hdi w

theorem stosBody_storesDest (hdi : .edi ∈ regs) (w : Size) : Keeps (StoresDest regs w) (stosBody w) :=
  .callsStoresDest (readReg_keeps (calls_preserved _ _) w .eax) fun v =>
    .storesDestCalls (writeDest_storesDest v) fun _ => advanceIndex_calls hdi w

theorem insBody_storesDest (hdi : .edi ∈ regs) (w : Size) : Keeps (StoresDest regs w) (insBody w) :=
  .callsStoresDest (ioCheck_keeps (calls_preserved _ _)) fun _ =>
    .callsStoresDest (.get (calls_preserved _ _)) fun _ =>
      .callsStoresDest (checkSegWrite_keeps (calls_preserved _ _) calls_mark _ _ _) fun _ =>
        .callsStoresDest (portIn_keeps (calls_preserved _ _) calls_draw calls_event _ w) fun _ =>
          .storesDestCalls (writeDest_storesDest _) fun _ => advanceIndex_calls hdi w

/-! ### Instructions that store the destination element -/

theorem stringDone_calls (hc : .ecx ∈ regs) (s t : State) (zterm : Bool) : Calls regs 0 t (s.stringDone t zterm) := by
  have hcount : Calls regs 0 t t.countDown := ofIndex (calls_reg hc) t _
  unfold State.stringDone
  split
  · exact calls_eip t _
  · split
    · exact (calls_preserved _ _).trans _ _ _ hcount (calls_eip _ _)
    · exact hcount

theorem stringStep_storesDest {body : Exec Unit} (hc : .ecx ∈ regs) (hb : Keeps (StoresDest regs w) body)
    (zterm : Bool) : Keeps (StoresDest regs w) (stringStep body zterm) := by
  intro s a t h
  obtain rfl | ⟨u, hu, rfl⟩ := stringStep_ok h
  · exact Calls.storesDest (calls_eip s _)
  · exact (hb s () u hu).thenCalls (stringDone_calls hc s u zterm)

variable {i : Instr} {body : Exec Unit}

/-- An instruction takes an exception, or its fetch and its body ran to the end (60_exceptions R496). -/
theorem runInstr_ran (h : runInstr body s = .next t) : TookFault s t ∨ (touchFetch >>= fun _ => body) s = .ok ((), t) := by
  unfold runInstr at h
  cases hx : (touchFetch >>= fun _ => body) s with
  | ok v => rw [hx] at h; cases h; exact .inr rfl
  | error e =>
    rw [hx] at h
    cases e with
    | raise r => exact .inl ⟨r, h⟩
    | fatal a => cases a <;> cases h

theorem framedPort_of_storesDest (hi : exec i s = runInstr (stringStep body false) s) (hc : .ecx ∈ regs)
    (hb : Keeps (StoresDest regs w) body) :
    FramedPort i s ⟨regs, [], 0, [s.segStore .es (indexValue s .edi) w.bytes]⟩ := fun t ht =>
  (runInstr_ran (hi ▸ ht)).imp_right fun hran =>
    Keeps.callsStoresDest (touchFetch_keeps (calls_preserved _ _) calls_mark)
      (fun _ => stringStep_storesDest hc hb false) s () t hran

/-- The same device calls are on record. -/
def SameEvents (s t : State) : Prop := t.events = s.events

theorem sameEvents_preserved : Preserved SameEvents := ⟨fun _ => rfl, fun _ _ _ h k => Eq.trans k h⟩

theorem sameEvents_write : OfWrite SameEvents := fun _ _ _ _ => rfl

theorem sameEvents_reg (r : Reg) : OfReg SameEvents r := fun _ _ => rfl

/-- An instruction that calls no device keeps its frame without device calls. -/
theorem framed_of_storesDest (hi : exec i s = runInstr (stringStep body false) s) (hc : .ecx ∈ regs)
    (hb : Keeps (StoresDest regs w) body) (he : Keeps SameEvents body) :
    Framed i s ⟨regs, [], 0, [s.segStore .es (indexValue s .edi) w.bytes]⟩ := by
  intro t ht
  have hstep := stringStep_keeps sameEvents_preserved (sameEvents_reg .ecx) (fun _ _ => rfl) he false
  obtain hfault | ⟨hholds, hsystem, -⟩ := framedPort_of_storesDest hi hc hb t ht
  · exact .inl hfault
  · exact (runInstr_next sameEvents_preserved sameEvents_write.mark hstep (hi ▸ ht)).symm.imp_right
      fun hevents => ⟨hholds, hsystem, hevents⟩

end

/-! ### The obligation -/

section
variable {i : Instr} {s : State} {w : Size}

theorem framed_movs (hi : exec i s = runInstr (stringStep (movsBody w) false) s) :
    Framed i s ⟨[.esi, .edi, .ecx], [], 0, [s.segStore .es (indexValue s .edi) w.bytes]⟩ :=
  framed_of_storesDest hi (by decide) (movsBody_storesDest (by decide) (by decide) w)
    (movsBody_keeps sameEvents_preserved sameEvents_write (sameEvents_reg _) (sameEvents_reg _) w)

theorem framed_stos (hi : exec i s = runInstr (stringStep (stosBody w) false) s) :
    Framed i s ⟨[.edi, .ecx], [], 0, [s.segStore .es (indexValue s .edi) w.bytes]⟩ :=
  framed_of_storesDest hi (by decide) (stosBody_storesDest (by decide) w)
    (stosBody_keeps sameEvents_preserved sameEvents_write (sameEvents_reg _) w)

theorem framed_cmps (hi : exec i s = runInstr (stringStep (cmpsBody w) true) s) :
    Framed i s ⟨[.esi, .edi, .ecx], [], statusMask, []⟩ :=
  framed_of_string hi (by decide) (cmpsBody_keeps (changes_preserved _ _) changes_status changes_mark
    (changes_reg (by decide)) (changes_reg (by decide)) w)

theorem framed_lods (hi : exec i s = runInstr (stringStep (lodsBody w) false) s) :
    Framed i s ⟨[.eax, .esi, .ecx], [], 0, []⟩ :=
  framed_of_string hi (by decide) (lodsBody_keeps (changes_preserved _ _) changes_mark (changes_reg (by decide))
    (changes_reg (by decide)) w)

theorem framed_scas (hi : exec i s = runInstr (stringStep (scasBody w) true) s) :
    Framed i s ⟨[.edi, .ecx], [], statusMask, []⟩ :=
  framed_of_string hi (by decide) (scasBody_keeps (changes_preserved _ _) changes_status changes_mark
    (changes_reg (by decide)) w)

theorem framedPort_ins (hi : exec i s = runInstr (stringStep (insBody w) false) s) :
    FramedPort i s ⟨[.edi, .ecx], [], 0, [s.segStore .es (indexValue s .edi) w.bytes]⟩ :=
  framedPort_of_storesDest hi (by decide) (insBody_storesDest (by decide) w)

theorem framedPort_outs (hi : exec i s = runInstr (stringStep (outsBody w) false) s) :
    FramedPort i s ⟨[.esi, .ecx], [], 0, []⟩ :=
  framedPort_of_run hi (stringStep_keeps (calls_preserved _ _) (calls_reg (by decide)) calls_eip
    (outsBody_keeps (calls_preserved _ _) calls_event calls_mark (calls_reg (by decide)) w) false)

theorem framedPort_in {port : Half} (hi : exec i s = seqInstr (inPort w port) s) :
    FramedPort i s ⟨[.eax], [], 0, []⟩ :=
  framedPort_of_seq hi (inPort_keeps (calls_preserved _ _) calls_draw calls_event (calls_reg (by decide)) w port)

theorem framedPort_out {port : Half} (hi : exec i s = seqInstr (outPort w port) s) :
    FramedPort i s ⟨[], [], 0, []⟩ :=
  framedPort_of_seq hi (outPort_keeps (calls_preserved _ _) calls_event w port)

end

/-- Settles O57: only MOVS, STOS and INS store, one destination element; the others change registers, flags and the record of
device calls. -/
theorem stringFrames : Obligations.StringFrames := by
  unfold Obligations.StringFrames
  intro s ib
  simp only [List.forall_mem_cons, List.not_mem_nil, false_implies, implies_true, and_true]
  exact ⟨framed_movs (w := .b8) rfl, framed_movs rfl, ⟨framed_cmps rfl, framed_cmps rfl⟩, framed_stos (w := .b8) rfl,
    framed_stos rfl, ⟨framed_lods rfl, framed_lods rfl⟩, ⟨framed_scas rfl, framed_scas rfl⟩,
    framedPort_ins (w := .b8) rfl, framedPort_ins rfl, ⟨framedPort_outs rfl, framedPort_outs rfl⟩,
    ⟨framedPort_in rfl, framedPort_in rfl, framedPort_in rfl, framedPort_in rfl⟩,
    framedPort_out rfl, framedPort_out rfl, framedPort_out rfl, framedPort_out rfl⟩

end Sys2Proof.Machine
end

section
/-! PROOF. Pushes, pops and loads of segment registers (43_stack R330 to R347; 20_memory R104 to R107): where its accesses
succeed, each operation of the stack instructions runs to one named state. -/

namespace Sys2Proof.Machine

/-! ### What pushes and pops leave of the state -/

@[simp] theorem State.storeAt_params (s : State) (user : Bool) (lin : Word) (n v : Nat) :
    (s.storeAt user lin n v).params = s.params := by
  unfold State.storeAt; split <;> rfl

@[simp] theorem State.pushed_plainWalks (s : State) (n v : Nat) : (s.pushed n v).plainWalks = s.plainWalks := by
  simp [State.plainWalks, State.pushed, State.storeTo]

theorem agree_setStackPointer (s : State) (v : Word) : Agree s (s.setStackPointer v) := by
  constructor <;> simp

theorem agree_popped (s : State) (n : Nat) : Agree s (s.popped n) := agree_setStackPointer s _

theorem agree_poppedInto (s : State) (w : Size) (r : Reg) : Agree s (s.poppedInto w r) :=
  (agree_popped s _).trans (agree_setView _ _ _ _)

/-- The image of a selector changes nothing that a push depends on (43_stack R336). -/
theorem State.imaged_canPush (s : State) (n k : Nat) : (s.imaged n).canPush k = s.canPush k := by
  unfold State.imaged
  split
  · exact (agree_drawn s).writable _ _ _
  · rfl

theorem State.imaged_plainWalks (s : State) (n : Nat) : (s.imaged n).plainWalks = s.plainWalks := by
  unfold State.imaged; split <;> rfl

/-! ### A push and a pop (43_stack R330, R331) -/

theorem selImage_run (n : Nat) (sel : Half) (s : State) : selImage n sel s = .ok (s.selValue n sel, s.imaged n) := by
  unfold selImage State.selValue State.imaged
  split <;> rfl

section
variable {s : State} (hw : s.plainWalks = true)
include hw

theorem push_run {n : Nat} (h : s.canPush n = true) (v : Nat) : push n v s = .ok ((), s.pushed n v) := by
  rw [State.canPush] at h
  simp only [push, bind_run, get_run, segWrite_run hw v h]
  rfl

theorem pop_run {n : Nat} (h : s.canPop n = true) : pop n s = .ok (s.top n, s.popped n) := by
  rw [State.canPop] at h
  simp only [pop, bind_run, get_run, segRead_run hw h]
  rfl

theorem popReg_run {w : Size} (h : s.canPop w.bytes = true) (r : Reg) : popReg w r s = .ok ((), s.poppedInto w r) := by
  simp only [popReg, bind_run, pop_run hw h, writeReg_run]
  rfl

/-! ### A load of a segment register (20_memory R104 to R107) -/

theorem readDescriptor_desc {sel : Half} (h : s.hasDesc sel = true) (vec : Byte) (ext : Bool) :
    readDescriptor sel vec ext s = .ok (s.desc sel, s) := by
  simp only [State.hasDesc, Bool.and_eq_true, Bool.or_eq_true, Bool.not_eq_true', decide_eq_true_eq] at h
  obtain ⟨⟨hldt, hlimit⟩, hbacked⟩ := h
  exact readDescriptor_run hw (fun ht => hldt.resolve_left (by simp [ht])) hlimit hbacked

theorem markDescriptor_run {sel : Half} (h : s.canMark sel = true) (d : Desc) (mask : Byte) :
    markDescriptor sel d mask s = .ok ((), s.marked sel d mask) := by
  simp only [markDescriptor, bind_run, get_run, State.marked]
  by_cases hm : s.params.descriptorWriteback = true
  · simp only [State.canMark, hm, Bool.not_true, Bool.false_or] at h
    rw [if_pos hm, if_pos hm]
    exact linWrite_run hw _ h
  · rw [if_neg hm, if_neg hm]
    rfl

/-- The descriptor is marked after the segment register is written, which the mark does not depend on. -/
theorem markDescriptor_setSeg_run {sel : Half} (h : s.canMark sel = true) (r : SReg) (g : Segment) (d : Desc)
    (mask : Byte) : markDescriptor sel d mask (s.setSeg r g) = .ok ((), (s.setSeg r g).marked sel d mask) := by
  have hmark : (s.setSeg r g).canMark sel = s.canMark sel := by
    simp only [State.canMark]
    rw [backed_agree (s := s) rfl rfl rfl rfl]
    rfl
  exact markDescriptor_run (s := s.setSeg r g) hw (hmark.trans h) d mask

theorem loadSS_run {sel : Half} (hnull : isNull sel = false) (hd : s.hasDesc sel = true)
    (hok : s.stackOk sel (s.desc sel) = true) (hm : s.canMark sel = true) :
    loadSS sel s = .ok ((), (s.setSeg .ss ((s.desc sel).segment sel)).marked sel (s.desc sel) 1) := by
  simp only [State.stackOk, Bool.and_eq_true] at hok
  obtain ⟨⟨⟨hrpl, hdata⟩, hdpl⟩, hpresent⟩ := hok
  simp only [loadSS, bind_run, get_run, hnull, Bool.not_false, check_true, readDescriptor_desc hw hd, hrpl, hdata, hdpl,
    hpresent, Bool.and_true, modify_run, markDescriptor_setSeg_run hw hm]

theorem loadDataSeg_run {sel : Half} (r : SReg) (hnull : isNull sel = false) (hd : s.hasDesc sel = true)
    (hok : s.dataOk sel (s.desc sel) = true) (hm : s.canMark sel = true) :
    loadDataSeg r sel s = .ok ((), (s.setSeg r ((s.desc sel).segment sel)).marked sel (s.desc sel) 1) := by
  simp only [State.dataOk, Bool.and_eq_true] at hok
  obtain ⟨⟨⟨hdata, hread⟩, hlevel⟩, hpresent⟩ := hok
  simp only [loadDataSeg, bind_run, get_run, hnull, Bool.false_eq_true, if_false, readDescriptor_desc hw hd, hdata, hread,
    hlevel, hpresent, check_true, modify_run, markDescriptor_setSeg_run hw hm]

theorem loadSReg_run {r : SReg} {sel : Half} (h : s.canLoad r sel = true) :
    loadSReg r sel s = .ok ((), s.loaded r sel) := by
  simp only [loadSReg, bind_run, get_run, State.loaded]
  simp only [State.canLoad] at h
  cases hpe : s.pe with
  | false => rfl
  | true =>
    simp only [hpe, Bool.not_true, Bool.false_or] at h
    by_cases hss : r = .ss
    · subst hss
      simp only [if_true, Bool.and_eq_true, Bool.not_eq_true'] at h
      obtain ⟨⟨⟨hnull, hd⟩, hok⟩, hm⟩ := h
      simpa using loadSS_run hw hnull hd hok hm
    · cases hnull : isNull sel with
      | true => simp [hss, loadDataSeg, bind_run, hnull]
      | false =>
        simp only [hss, if_false, hnull, Bool.false_or, Bool.and_eq_true] at h
        obtain ⟨⟨hd, hok⟩, hm⟩ := h
        simpa [hss] using loadDataSeg_run hw r hnull hd hok hm

/-! ### The stack instructions (43_stack R333 to R347) -/

theorem pushSReg_run {w : Size} (h : s.canPush w.bytes = true) (r : SReg) :
    pushSReg w r s = .ok ((), (s.imaged w.bytes).pushed w.bytes (s.selValue w.bytes (s.seg r).sel)) := by
  simp only [pushSReg, bind_run, get_run, selImage_run]
  exact push_run ((s.imaged_plainWalks _).trans hw) ((s.imaged_canPush _ _).trans h) _

/-- The operand is addressed from the registers after the pop (43_stack R338). -/
theorem popRM_run {w : Size} (h : s.canPop w.bytes = true) {rm : RM} {x : State} (hx : x = s.popped w.bytes)
    (hl : x.locWritable w (locate x rm) = true) :
    popRM w rm s = .ok ((), x.locStore w (locate x rm) (BitVec.ofNat _ (s.top w.bytes))) := by
  subst hx
  simp only [popRM, bind_run, pop_run hw h]
  exact writeRM_run ((agree_popped s _).plainWalks.trans hw) _ hl

theorem popSReg_run {w : Size} (h : s.canPop w.bytes = true) {r : SReg} {x : State} (hx : x = s.popped w.bytes)
    (hl : x.canLoad r (BitVec.ofNat 16 (s.top w.bytes)) = true) :
    popSReg w r s = .ok ((), x.loaded r (BitVec.ofNat 16 (s.top w.bytes))) := by
  subst hx
  simp only [popSReg, bind_run, pop_run hw h]
  exact loadSReg_run ((agree_popped s _).plainWalks.trans hw) hl

theorem popFlags_run {w : Size} (h : s.canPop w.bytes = true) :
    popFlags w s = .ok ((), (s.popped w.bytes).withFlags fun old =>
      maskedFlags (popMask s.priv0 s.ioPriv) old (BitVec.ofNat 32 (s.top w.bytes))) := by
  have hcpl : (s.popped w.bytes).cpl = s.cpl := by simp only [State.popped, State.cpl, State.setStackPointer_segs]
  have hiopl : (s.popped w.bytes).iopl = s.iopl := by
    simp only [State.popped, State.iopl, State.setStackPointer_eflags]
  have hpriv : (s.popped w.bytes).priv0 = s.priv0 ∧ (s.popped w.bytes).ioPriv = s.ioPriv := by
    rw [State.priv0, State.ioPriv, hcpl, hiopl, (agree_popped s _).pe]
    exact ⟨rfl, rfl⟩
  simp only [popFlags, bind_run, pop_run hw h, get_run, hpriv, modifyFlags_run]
  rfl

end

theorem pushList_run {s : State} (hw : s.plainWalks = true) {n : Nat} {vs : List Nat} (h : s.canPushes n vs = true) :
    pushList n vs s = .ok ((), s.pushes n vs) := by
  induction vs generalizing s with
  | nil => rfl
  | cons v vs ih =>
    obtain ⟨hpush, hrest⟩ := Bool.and_eq_true_iff.1 h
    simp only [pushList, bind_run, push_run hw hpush]
    exact ih ((s.pushed_plainWalks n v).trans hw) hrest

/-- Pops into registers in order, none for a value that is discarded. -/
def popList (w : Size) : List (Option Reg) → Exec Unit
  | [] => pure ()
  | some r :: rs => do
    popReg w r
    popList w rs
  | none :: rs => do
    let _ ← pop w.bytes
    popList w rs

theorem popAll_eq_popList (w : Size) : popAll w = popList w popaOrder := by
  simp only [popAll, popaOrder, popList, bind_pure_unit]

theorem popList_run {s : State} (hw : s.plainWalks = true) {w : Size} {rs : List (Option Reg)}
    (h : s.canPopList w rs = true) : popList w rs s = .ok ((), s.poppedList w rs) := by
  induction rs generalizing s with
  | nil => rfl
  | cons o rs ih =>
    cases o with
    | none =>
      obtain ⟨hpop, hrest⟩ := Bool.and_eq_true_iff.1 h
      simp only [popList, bind_run, pop_run hw hpop]
      exact ih ((agree_popped s _).plainWalks.trans hw) hrest
    | some r =>
      obtain ⟨hpop, hrest⟩ := Bool.and_eq_true_iff.1 h
      simp only [popList, bind_run, popReg_run hw hpop]
      exact ih ((agree_poppedInto s w r).plainWalks.trans hw) hrest

/-! ### The obligations -/

/-- The pushes of segment registers are one operation (43_stack R336). -/
theorem exec_pushSReg {i : Instr} {r : SReg} (s : State)
    (hi : (i, r) ∈ [(Instr.pushEs, SReg.es), (.pushCs, .cs), (.pushSs, .ss), (.pushDs, .ds), (.pushFs, .fs), (.pushGs, .gs)]) :
    exec i s = seqInstr (pushSReg s.ctx.osz r) s := by
  simp only [List.mem_cons, Prod.mk.injEq, List.not_mem_nil, or_false] at hi
  obtain ⟨rfl, rfl⟩ | ⟨rfl, rfl⟩ | ⟨rfl, rfl⟩ | ⟨rfl, rfl⟩ | ⟨rfl, rfl⟩ | ⟨rfl, rfl⟩ := hi <;> rfl

/-- So are the pops of segment registers (43_stack R339). -/
theorem exec_popSReg {i : Instr} {r : SReg} (s : State)
    (hi : (i, r) ∈ [(Instr.popEs, SReg.es), (.popSs, .ss), (.popDs, .ds), (.popFs, .fs), (.popGs, .gs)]) :
    exec i s = seqInstr (popSReg s.ctx.osz r) s := by
  simp only [List.mem_cons, Prod.mk.injEq, List.not_mem_nil, or_false] at hi
  obtain ⟨rfl, rfl⟩ | ⟨rfl, rfl⟩ | ⟨rfl, rfl⟩ | ⟨rfl, rfl⟩ | ⟨rfl, rfl⟩ := hi <;> rfl

/-- Settles O8: each form pushes the value that it reads first, or pops and writes its operand or segment register then. -/
theorem pushesAndPopsRun : Obligations.PushesAndPopsRun := by
  unfold Obligations.PushesAndPopsRun
  refine ⟨fun s hw h => ⟨fun r => ?_, fun iz => ?_, fun ib => ?_, fun rm hr => ?_, fun i r hi => ?_⟩,
    fun s hw h => ⟨fun r => ?_, fun rm x hx hl => ?_, fun i r hi x hx hl => ?_⟩⟩
  · exact seqInstr_ok hw (push_run hw h _)
  · exact seqInstr_ok hw (push_run hw h _)
  · exact seqInstr_ok hw (push_run hw h _)
  · refine seqInstr_ok (body := pushRM s.ctx.osz rm) hw ?_
    simp only [pushRM, bind_run, readRM_run hw hr, push_run hw h]
  · exact (exec_pushSReg s hi).trans (seqInstr_ok hw (pushSReg_run hw h r))
  · exact seqInstr_ok hw (popReg_run hw h r)
  · exact seqInstr_ok hw (popRM_run hw h hx hl)
  · exact (exec_popSReg s hi).trans (seqInstr_ok hw (popSReg_run hw h hx hl))

/-- Settles O9: PUSHA and POPA are lists of pushes and pops, and the others one push or one pop. -/
theorem stackFramesRun : Obligations.StackFramesRun := by
  unfold Obligations.StackFramesRun
  refine fun s hw => ⟨fun vs hvs h => ?_, fun h => ?_, fun h => ?_, fun h => ?_, fun x hx h => ?_⟩
  · subst hvs
    exact seqInstr_ok (body := pushAll s.ctx.osz) hw (pushList_run hw h)
  · refine seqInstr_ok (body := popAll s.ctx.osz) hw ?_
    rw [popAll_eq_popList]
    exact popList_run hw h
  · exact seqInstr_ok (body := pushFlags s.ctx.osz) hw (push_run hw h _)
  · exact seqInstr_ok hw (popFlags_run hw h)
  · subst hx
    exact seqInstr_ok (body := leaveFrame s.ctx.osz) hw
      (popReg_run ((agree_setStackPointer s _).plainWalks.trans hw) h .ebp)

end Sys2Proof.Machine
end

section
/-! PROOF. A push and then a pop with paging off (43_stack R332): the slot can be read where it could be written, the stored
bytes are read back, and the stack pointer returns. -/

namespace Sys2Proof.Machine

/-! ### Linear addresses with paging off (20_memory R130) -/

section
variable {s : State} (hp : s.paging = false)
include hp

theorem physAll_unpaged (acc : Access) (user : Bool) (as : List Word) : s.physAll acc user as = some as := by
  induction as with
  | nil => rfl
  | cons a as ih => simp [State.physAll, State.phys, hp, ih]

theorem backed_unpaged (acc : Access) (user : Bool) (lin : Word) (n : Nat) :
    s.backed acc user lin n = s.inRam (addrs lin n) := by
  simp only [State.backed, physAll_unpaged hp]

theorem valueAt_unpaged (user : Bool) (lin : Word) (n : Nat) : s.valueAt user lin n = s.numberOf (addrs lin n) := by
  simp only [State.valueAt, physAll_unpaged hp]

theorem storeAt_unpaged (user : Bool) (lin : Word) (n v : Nat) :
    s.storeAt user lin n v = { s with mem := storeBytes (addrs lin n) (leBytes n v) s.mem } := by
  simp only [State.storeAt, physAll_unpaged hp]

end

/-- A stored number is read back at its addresses, modulo its range (20_memory R81, R83). -/
theorem numberOf_storeBytes {s : State} (hm : Memory.wf s.mem = true) (a : Word) {n : Nat} (hn : n ≤ 4294967296) (v : Nat) :
    { s with mem := storeBytes (addrs a n) (leBytes n v) s.mem }.numberOf (addrs a n) = v % 256 ^ n := by
  rw [State.numberOf, map_read_storeBytes hm (addrs_nodup a hn) (by simp), leNat_leBytes]

/-! ### The stack pointer (43_stack R330) -/

/-- A value of the stack pointer: all of it, or its low half zero-extended. -/
def stackWord (wide : Bool) (v : Word) : Word :=
  if wide then v else (v.extractLsb' 0 16).setWidth 32

theorem stackWord_add (wide : Bool) (a d : Word) : stackWord wide (stackWord wide a + d) = stackWord wide (a + d) := by
  cases wide with
  | true => rfl
  | false =>
    apply BitVec.eq_of_toNat_eq
    simp only [stackWord, Bool.false_eq_true, if_false, BitVec.toNat_setWidth, BitVec.toNat_add, BitVec.extractLsb'_toNat,
      Nat.shiftRight_zero]
    omega

theorem State.stackPointer_eq (s : State) : s.stackPointer = stackWord s.segs.ss.ar.db s.regs.esp := rfl

theorem State.movedPointer_eq (s : State) (d : Word) :
    s.movedPointer d = stackWord s.segs.ss.ar.db (s.regs.esp + d) :=
  stackWord_add _ _ _

/-- A pointer that is written is read back at its size. -/
theorem State.stackPointer_setStackPointer (s : State) (v : Word) :
    (s.setStackPointer v).stackPointer = stackWord s.segs.ss.ar.db v := by
  rw [State.stackPointer_eq, State.setStackPointer_segs, State.setStackPointer]
  split
  · next h => rw [h]; rfl
  · next h =>
    rw [Bool.eq_false_iff.2 h]
    exact congrArg (BitVec.setWidth 32) (putLow16_low _ _)

theorem State.stackPointer_moved (s : State) (d : Word) :
    (s.setStackPointer (s.movedPointer d)).stackPointer = s.movedPointer d := by
  have hfixed := stackWord_add s.segs.ss.ar.db (s.regs.esp + d) 0#32
  rw [BitVec.add_zero, BitVec.add_zero] at hfixed
  rw [State.stackPointer_setStackPointer, State.movedPointer_eq, hfixed]

/-- A move back by the same amount returns the pointer, with any registers but the pointer changed in between. -/
theorem State.movedPointer_back {s t : State} {d : Word} (hsegs : t.segs = s.segs)
    (ht : t.stackPointer = s.movedPointer (-d)) : t.movedPointer d = s.stackPointer := by
  have hback : s.regs.esp + -d + d = s.regs.esp := by rw [← BitVec.sub_eq_add_neg, BitVec.sub_add_cancel]
  rw [State.movedPointer_eq, ← stackWord_add, hsegs, ← hsegs, ← State.stackPointer_eq, ht, hsegs, State.movedPointer_eq,
    stackWord_add, hback, State.stackPointer_eq]

/-! ### The top of the stack after a push (43_stack R332) -/

/-- Data that may be written may be read (20_memory R103). -/
theorem State.mayRead_of_mayWrite {s : State} {r : SReg} (h : s.mayWrite r = true) : s.mayRead r = true := by
  simp only [State.mayWrite, State.mayRead, Rights.writable, Bool.or_eq_true, Bool.and_eq_true] at h ⊢
  exact h.imp_right fun ⟨hvalid, hdata, _⟩ => ⟨hvalid, .inl hdata⟩

section
variable {s : State} {n : Nat} (hp : s.paging = false)
include hp

theorem pushed_unpaged (v : Nat) :
    s.pushed n v =
      { s.setStackPointer (s.movedPointer (-BitVec.ofNat 32 n)) with
        mem := storeBytes (addrs (s.linear .ss (s.movedPointer (-BitVec.ofNat 32 n))) n) (leBytes n v) s.mem } := by
  rw [State.pushed, State.storeTo, storeAt_unpaged hp, State.setStackPointer, State.setStackPointer]
  split <;> rfl

theorem pushed_stackPointer (v : Nat) : (s.pushed n v).stackPointer = s.movedPointer (-BitVec.ofNat 32 n) := by
  rw [pushed_unpaged hp]
  exact s.stackPointer_moved _

theorem pushed_segs (v : Nat) : (s.pushed n v).segs = s.segs := by
  rw [pushed_unpaged hp]
  exact s.setStackPointer_segs _

theorem pushed_paging (v : Nat) : (s.pushed n v).paging = false := by
  rw [pushed_unpaged hp]
  simpa [State.paging] using hp

theorem pushed_linear (v : Nat) (r : SReg) (off : Word) : (s.pushed n v).linear r off = s.linear r off := by
  simp only [State.linear, State.seg, pushed_segs hp]

/-- The slot of a push can be read. -/
theorem pushed_canPop (h : s.canPush n = true) (v : Nat) : (s.pushed n v).canPop n = true := by
  simp only [State.canPush, State.writable, Bool.and_eq_true, backed_unpaged hp] at h
  obtain ⟨⟨hin, hmay⟩, hram⟩ := h
  have hread := State.mayRead_of_mayWrite hmay
  simp only [State.canPop, State.readable, Bool.and_eq_true, backed_unpaged (pushed_paging hp v), pushed_linear hp,
    pushed_stackPointer hp]
  rw [pushed_unpaged hp]
  simp only [State.mayRead, State.seg, State.pe, State.setStackPointer_segs, State.setStackPointer_cr0] at hin hread ⊢
  refine ⟨⟨hin, hread⟩, ?_⟩
  simpa [State.inRam] using hram

/-- What was pushed is on top of the stack. -/
theorem pushed_top (hm : Memory.wf s.mem = true) (hn : n ≤ 4294967296) (v : Nat) :
    (s.pushed n v).top n = v % 256 ^ n := by
  rw [State.top, State.loadFrom, valueAt_unpaged (pushed_paging hp v), pushed_linear hp, pushed_stackPointer hp,
    pushed_unpaged hp]
  exact numberOf_storeBytes hm _ hn v

end

theorem agree_advanced (s : State) : Agree s s.advanced := ⟨rfl, rfl, rfl, rfl, rfl⟩

theorem State.advanced_canPop (s : State) (n : Nat) : s.advanced.canPop n = s.canPop n :=
  (agree_advanced s).readable .ss s.stackPointer n

theorem State.advanced_top (s : State) (n : Nat) : s.advanced.top n = s.top n :=
  (agree_advanced s).loadFrom .ss s.stackPointer n

/-- A register view of an operand size holds a number that as many bytes hold. -/
theorem Size.pow_bytes (w : Size) : 256 ^ w.bytes = 2 ^ w.bits := by cases w <;> rfl

/-- A register that is not the stack pointer can be written without moving it. -/
theorem State.stackPointer_setView (s : State) {w : Size} (hw : w ≠ .b8) {r : Reg} (hr : r ≠ .esp) (v : BitVec w.bits) :
    (s.setView w r v).stackPointer = s.stackPointer := by
  have hesp : (s.setView w r v).regs.esp = s.regs.esp := s.setView_get w r .esp v (by rw [if_neg hw]; exact hr.symm)
  rw [State.stackPointer_eq, hesp, State.setView_segs, State.stackPointer_eq]

/-- Settles O10: the pop reads the pushed bytes back and moves the stack pointer back. -/
theorem pushThenPopRestores : Obligations.PushThenPopRestores := by
  unfold Obligations.PushThenPopRestores
  intro s src dst hm hw hp hdst h
  let w := s.ctx.osz
  let t := (s.pushed w.bytes (s.view w src).toNat).advanced
  have hctx : t.ctx = s.ctx := (congrArg State.ctx (pushed_unpaged hp _)).trans (s.setStackPointer_ctx _)
  have hflags : t.eflags = s.eflags := (congrArg State.eflags (pushed_unpaged hp _)).trans (s.setStackPointer_eflags _)
  have hpush : exec (.pushRv src) s = .next t := seqInstr_ok hw (push_run hw h _)
  have hpop : exec (.popRv dst) t = .next (t.poppedInto w dst).advanced := by
    have hexec : exec (.popRv dst) t = seqInstr (popReg w dst) t := by rw [show w = t.ctx.osz by rw [hctx]]; rfl
    have hwalks : t.plainWalks = true := (s.pushed_plainWalks _ _).trans hw
    have hslot : t.canPop w.bytes = true := (State.advanced_canPop _ _).trans (pushed_canPop hp h _)
    exact hexec.trans (seqInstr_ok hwalks (popReg_run hwalks hslot dst))
  have htop : t.top w.bytes = (s.view w src).toNat := by
    have hn : w.bytes ≤ 4294967296 := by cases w <;> decide
    refine (State.advanced_top _ _).trans ((pushed_top hp hm hn _).trans (Nat.mod_eq_of_lt ?_))
    exact Size.pow_bytes w ▸ (s.view w src).isLt
  have hback : (t.popped w.bytes).stackPointer = s.stackPointer :=
    (t.stackPointer_moved _).trans (State.movedPointer_back (pushed_segs hp _) (pushed_stackPointer hp _))
  refine ⟨t, _, hpush, hpop, ?_, ?_, ?_⟩
  · refine (State.view_setView _ w dst _).trans ?_
    rw [htop, BitVec.ofNat_toNat, BitVec.setWidth_eq]
  · exact (State.stackPointer_setView _ (osz_ne_b8 s.ctx) hdst _).trans hback
  · exact (State.setView_eflags _ w dst _).trans ((t.setStackPointer_eflags _).trans hflags)

end Sys2Proof.Machine
end

section
/-! PROOF. What the stack instructions leave alone (43_stack R330 to R347): registers and segment registers of a frame, and
memory but for the slots that are pushed, a popped operand and the mark of a descriptor. -/

namespace Sys2Proof.Machine

variable {α : Type} {regs : List Reg} {segs : List SReg} {s t u : State}

/-! ### Frames in sequence -/

/-- A byte is none of the stored bytes. -/
def Untouched (stores : List Store) (a : Nat) : Prop :=
  ∀ w ∈ stores, w.covers a = false

theorem Frame.keeps_trans {mask : Word} {A B C : List Store} (h : (⟨regs, segs, mask, A⟩ : Frame).keeps s u)
    (k : (⟨regs, segs, mask, B⟩ : Frame).keeps u t)
    (hstores : s.plainWalks = true → ∀ a, Untouched C a → Untouched A a ∧ Untouched B a) :
    (⟨regs, segs, mask, C⟩ : Frame).keeps s t := by
  obtain ⟨⟨hregs, hsegs, hflags, hmem⟩, hsystem, hevents⟩ := h
  obtain ⟨⟨kregs, ksegs, kflags, kmem⟩, ksystem, kevents⟩ := k
  refine ⟨⟨fun q hq => (kregs q hq).trans (hregs q hq), fun q hq => (ksegs q hq).trans (hsegs q hq),
    kflags.trans hflags, fun hw a ha => ?_⟩, hsystem.trans ksystem, kevents.trans hevents⟩
  obtain ⟨hA, hB⟩ := hstores hw a ha
  exact (kmem (hsystem.plainWalks.trans hw) a hB).trans (hmem hw a hA)

theorem Frame.keeps_mono {mask : Word} {regs' : List Reg} {stores : List Store}
    (h : (⟨regs, [], mask, stores⟩ : Frame).keeps s t) (hregs : regs ⊆ regs') :
    (⟨regs', segs, mask, stores⟩ : Frame).keeps s t :=
  have ⟨⟨kregs, ksegs, kflags, kmem⟩, hrest⟩ := h
  ⟨⟨fun q hq => kregs q fun hm => hq (hregs hm), fun q _ => ksegs q List.not_mem_nil, kflags, kmem⟩, hrest⟩

/-- Registers and segment registers of a frame change, and memory only where the state before stores. -/
def StoresAt (regs : List Reg) (segs : List SReg) (stores : State → List Store) (s t : State) : Prop :=
  (⟨regs, segs, 0, stores s⟩ : Frame).keeps s t

/-- Changes of flags, EIP and the count of draws do not move what a state stores. -/
def Stable (stores : State → List Store) : Prop :=
  ∀ s u a, Changes [] 0 s u → s.plainWalks = true → Untouched (stores s) a → Untouched (stores u) a

theorem Changes.storesAt (h : Changes regs 0 s t) (stores : State → List Store) : StoresAt regs segs stores s t :=
  Frame.keeps_mono (h.keeps _) (List.Subset.refl _)

theorem StoresAt.thenChanges {stores : State → List Store} (h : StoresAt regs segs stores s u)
    (k : Changes regs 0 u t) : StoresAt regs segs stores s t :=
  Frame.keeps_trans h (k.storesAt fun _ => []) fun _ _ ha => ⟨ha, fun _ hw => (List.not_mem_nil hw).elim⟩

theorem Keeps.changesThen {stores : State → List Store} (hs : Stable stores) {x : Exec α} {f : α → Exec Unit}
    (hx : Keeps (Changes [] 0) x) (hf : ∀ a, Keeps (StoresAt regs segs stores) (f a)) :
    Keeps (StoresAt regs segs stores) (x >>= f) := by
  intro s b t h
  obtain ⟨a, u, h1, h2⟩ := bind_ok.1 h
  have hsu := hx s a u h1
  exact Frame.keeps_trans ((hsu.mono (List.nil_subset _)).storesAt stores) (hf a u b t h2)
    fun hw a ha => ⟨ha, hs s u a hsu hw ha⟩

/-- An instruction takes an exception, or its body ran to the end; its own fetch stores nothing (20_memory R134). -/
theorem framed_of_storesAt {i : Instr} {body : Exec Unit} {stores : State → List Store}
    (hi : exec i s = seqInstr body s) (hk : Keeps (StoresAt regs segs stores) body) :
    Framed i s ⟨regs, segs, 0, stores s⟩ := by
  refine fun t ht => (runInstr_ran (hi ▸ ht)).imp_right fun hran => ?_
  obtain ⟨_, s', hfetch, hran⟩ := bind_ok.1 hran
  obtain ⟨_, u, hbody, hadvance⟩ := bind_ok.1 hran
  cases hadvance
  have hs : Changes [] 0 s s' := touchFetch_keeps (changes_preserved _ _) changes_mark _ _ _ hfetch
  have hsu : StoresAt regs segs stores s u := by
    refine Frame.keeps_trans ((hs.mono (List.nil_subset _)).storesAt stores) (hk s' () u hbody) fun hw a ha => ⟨ha, ?_⟩
    rw [touchFetch_run hw] at hfetch
    cases hfetch
    exact ha
  exact hsu

/-! ### A store and a push (43_stack R330) -/

theorem linWrite_only_mem {user : Bool} {lin : Word} {n v : Nat} {a : Unit}
    (h : linWrite user lin n v s = .ok (a, t)) : ∃ m, t = { s with mem := m } :=
  linWrite_keeps (R := fun s t => ∃ m, t = { s with mem := m })
    ⟨fun s => ⟨s.mem, rfl⟩, fun _ _ _ h k => by obtain ⟨_, rfl⟩ := h; obtain ⟨m, rfl⟩ := k; exact ⟨m, rfl⟩⟩
    (fun _ _ _ _ => ⟨_, rfl⟩) _ _ _ _ _ _ _ h

/-- An access whose walks and whose physical accesses do not stop is allowed at every byte (20_memory R82, R135). -/
theorem backed_of_no_stop (hw : s.plainWalks = true) {acc : Access} {user : Bool} {lin : Word} {n : Nat}
    (hwalks : ∀ e, translates acc user (addrs lin n) s ≠ .error e)
    (hram : ∀ ps, s.physAll acc user (addrs lin n) = some ps → s.inRam ps ≠ false) :
    s.backed acc user lin n = true := by
  rw [State.backed]
  cases hp : s.physAll acc user (addrs lin n) with
  | none =>
    obtain ⟨e, he⟩ := translates_none hw hp
    exact absurd he (hwalks e)
  | some ps => exact Bool.eq_true_of_not_eq_false (hram ps hp)

theorem linWrite_backed (hw : s.plainWalks = true) {user : Bool} {lin : Word} {n v : Nat} {a : Unit}
    (h : linWrite user lin n v s = .ok (a, t)) : s.backed .write user lin n = true := by
  refine backed_of_no_stop hw (fun e he => ?_) fun ps hp hr => ?_
  · rw [linWrite_error v he] at h; cases h
  · rw [linWrite_outOfRange hw v hp hr] at h; cases h

theorem linRead_backed (hw : s.plainWalks = true) {user : Bool} {lin : Word} {n v : Nat}
    (h : linRead .read user lin n s = .ok (v, t)) : s.backed .read user lin n = true := by
  refine backed_of_no_stop hw (fun e he => ?_) fun ps hp hr => ?_
  · rw [linRead_error he] at h; cases h
  · rw [linRead_outOfRange hw hp hr] at h; cases h

theorem storeAt_untouched {user : Bool} {lin : Word} {n a : Nat} (v : Nat)
    (ha : Untouched [⟨s, user, lin, n⟩] a) : Memory.read (s.storeAt user lin n v).mem a = Memory.read s.mem a := by
  have hout := ha _ (List.mem_singleton.2 rfl)
  rw [State.storeAt]
  cases hp : s.physAll .write user (addrs lin n) with
  | none => rfl
  | some ps =>
    simp only [Store.covers, hp, List.any_eq_false, beq_iff_eq] at hout
    exact read_storeBytes_of_ne _ _ fun p hmem e => hout p hmem e.symm

theorem linWrite_storesAt (user : Bool) (lin : Word) (n v : Nat) :
    Keeps (StoresAt regs segs fun s => [⟨s, user, lin, n⟩]) (linWrite user lin n v) := by
  intro s b t h
  obtain ⟨m, rfl⟩ := linWrite_only_mem h
  refine ⟨⟨fun _ _ => rfl, fun _ _ => rfl, rfl, fun hw a ha => ?_⟩, .refl s, rfl⟩
  rw [linWrite_run hw v (linWrite_backed hw h)] at h
  have hmem : (s.storeAt user lin n v).mem = m := congrArg State.mem (Prod.mk.inj (Except.ok.inj h)).2
  exact hmem ▸ storeAt_untouched v ha

theorem checkSegment_ok {r : SReg} {off : Word} {n : Nat} {acc : Access} {a : Unit}
    (h : checkSegment r off n acc s = .ok (a, t)) : t = s :=
  checkSegment_keeps (R := fun s t => t = s) ⟨fun _ => rfl, fun _ _ _ h k => k.trans h⟩ _ _ _ _ _ _ _ h

theorem segWrite_storesAt (g : SReg) (off : Word) (n v : Nat) :
    Keeps (StoresAt regs segs fun s => [s.segStore g off n]) (segWrite g off n v) := by
  intro s b t h
  obtain ⟨_, u, hcheck, hwrite⟩ := bind_ok.1 h
  obtain rfl := checkSegment_ok hcheck
  exact linWrite_storesAt u.user (u.linear g off) n v u b t hwrite

theorem segRead_ok (hw : s.plainWalks = true) {g : SReg} {off : Word} {n v : Nat}
    (h : segRead g off n s = .ok (v, t)) : t = s ∧ v = s.loadFrom g off n := by
  obtain ⟨_, u, hcheck, hread⟩ := bind_ok.1 h
  obtain rfl := checkSegment_ok hcheck
  replace hread : linRead .read u.user (u.linear g off) n u = .ok (v, t) := hread
  rw [linRead_run hw (linRead_backed hw hread)] at hread
  cases hread
  exact ⟨rfl, rfl⟩

section
variable (hesp : .esp ∈ regs)
include hesp

theorem setStackPointer_changes (s : State) (v : Word) : Changes regs 0 s (s.setStackPointer v) :=
  ofStackPointer (changes_reg hesp) s v

theorem push_storesAt (n v : Nat) : Keeps (StoresAt regs segs fun s => [s.pushStore n]) (push n v) := by
  intro s b t h
  replace h : (segWrite .ss (s.movedPointer (-BitVec.ofNat 32 n)) n v >>= fun _ =>
    modify fun u => u.setStackPointer (s.movedPointer (-BitVec.ofNat 32 n))) s = .ok (b, t) := h
  obtain ⟨_, u, hwrite, hpointer⟩ := bind_ok.1 h
  cases hpointer
  have hsu := segWrite_storesAt (regs := regs) (segs := segs) _ _ _ _ _ _ _ hwrite
  exact StoresAt.thenChanges (stores := fun s => [s.pushStore n]) hsu (setStackPointer_changes hesp u _)

end

/-- Where page walks write nothing, a push that succeeds gives the state after a push. -/
theorem push_ok (hw : s.plainWalks = true) {n v : Nat} {a : Unit} (h : push n v s = .ok (a, t)) :
    t = s.pushed n v := by
  replace h : (segWrite .ss (s.movedPointer (-BitVec.ofNat 32 n)) n v >>= fun _ =>
    modify fun u => u.setStackPointer (s.movedPointer (-BitVec.ofNat 32 n))) s = .ok (a, t) := h
  obtain ⟨_, u, hwrite, hpointer⟩ := bind_ok.1 h
  cases hpointer
  obtain ⟨ps, hps, rfl⟩ := segWrite_ok hw hwrite
  simp only [State.pushed, State.storeTo, State.storeAt, hps]

/-- The stack is read, and then the pointer moves; where page walks write nothing the value is the top of the stack. -/
theorem pop_ok {n v : Nat} (h : pop n s = .ok (v, t)) :
    ∃ u, Changes [] 0 s u ∧ t = u.popped n ∧ (s.plainWalks = true → u = s ∧ v = s.top n) := by
  replace h : (segRead .ss s.stackPointer n >>= fun v =>
    (modify fun u => u.setStackPointer (u.movedPointer (BitVec.ofNat 32 n))) >>= fun _ => pure v) s = .ok (v, t) := h
  obtain ⟨_, u, hread, h⟩ := bind_ok.1 h
  cases h
  exact ⟨u, segRead_keeps (changes_preserved _ _) changes_mark _ _ _ _ _ _ hread, rfl, fun hw => segRead_ok hw hread⟩

/-- The pointer is moved from where it is, so a slot stays where it was (43_stack R330). -/
theorem stable_pushStore (n : Nat) : Stable fun s => [s.pushStore n] := by
  intro s u a h hw ha st hst
  have hpointer : u.movedPointer = s.movedPointer := by
    have hregs : u.regs.esp = s.regs.esp := h.regs .esp List.not_mem_nil
    funext d
    rw [State.movedPointer_eq, State.movedPointer_eq, h.segs, hregs]
  rw [List.mem_singleton.1 hst, State.pushStore, hpointer, (h.agree hw).segStore_covers]
  exact ha _ (List.mem_singleton.2 rfl)

/-! ### The mark of a descriptor (20_memory R106) -/

/-- The mark is addressed by the table registers, which loads of segment registers do not write. -/
theorem markStores_untouched (h : SameSystem s u) (hmem : u.mem = s.mem) {sel : Half} {a : Nat}
    (ha : Untouched (s.markStores sel) a) : Untouched (u.markStores sel) a := by
  simp only [SameSystem] at h
  obtain ⟨hgdtr, -, hldtr, -, hcr0, -, hcr3, -, -, -, -, -, -, -, hparams⟩ := h
  have htable : u.tableBase sel = s.tableBase sel := by simp only [State.tableBase, hgdtr, hldtr]
  rw [State.markStores] at ha
  rw [State.markStores, hparams, htable]
  split
  · next hm =>
    rw [if_pos hm, Untouched, List.forall_mem_singleton] at ha
    rw [Untouched, List.forall_mem_singleton, Store.covers, physAll_agree hcr0 hcr3 hmem hparams]
    exact ha
  · exact fun _ hw => (List.not_mem_nil hw).elim

theorem stable_markStores (sel : Half) : Stable fun s => s.markStores sel :=
  fun _ _ _ h hw ha => markStores_untouched h.system (h.mem hw) ha

theorem markDescriptor_storesAt (sel : Half) (d : Desc) (mask : Byte) :
    Keeps (StoresAt regs segs fun s => s.markStores sel) (markDescriptor sel d mask) := by
  refine .getBind fun s b t h => ?_
  rw [StoresAt, State.markStores]
  by_cases hm : s.params.descriptorWriteback = true
  · rw [if_pos hm] at h ⊢
    exact linWrite_storesAt _ _ _ _ _ _ _ h
  · rw [if_neg hm] at h ⊢
    cases h
    exact ((changes_preserved _ _).refl _).storesAt fun _ => []

/-! ### Loads of segment registers (20_memory R104 to R107) -/

section
variable {q : SReg} (hq : q ∈ segs)
include hq

theorem setSeg_storesAt (s : State) (g : Segment) (stores : State → List Store) :
    StoresAt regs segs stores s (s.setSeg q g) := by
  refine ⟨⟨fun _ _ => rfl, fun r hr => ?_, rfl, fun _ _ _ => rfl⟩, .refl s, rfl⟩
  have hne : r ≠ q := by rintro rfl; exact hr hq
  rw [State.setSeg_segs, Segments.get_set, if_neg hne]

/-- A segment register is written, and then its descriptor is marked. -/
theorem setSegThenMark_storesAt (sel : Half) (g : Segment) (d : Desc) (mask : Byte) :
    Keeps (StoresAt regs segs fun s => s.markStores sel)
      ((modify fun s => s.setSeg q g) >>= fun _ => markDescriptor sel d mask) := by
  intro s b t h
  exact Frame.keeps_trans (setSeg_storesAt hq s g fun s => s.markStores sel)
    (markDescriptor_storesAt sel d mask (s.setSeg q g) b t h)
    fun _ _ ha => ⟨ha, markStores_untouched (u := s.setSeg q g) (.refl s) rfl ha⟩

theorem loadDataSeg_storesAt (sel : Half) : Keeps (StoresAt regs segs fun s => s.markStores sel) (loadDataSeg q sel) := by
  have hR := changes_preserved [] 0
  have hs := stable_markStores sel
  refine .changesThen hs (.get hR) fun s => .ite (.modify fun s => setSeg_storesAt hq s _ _) ?_
  exact .changesThen hs (readDescriptor_keeps hR changes_mark _ _ _) fun _ => .changesThen hs (.check hR _ _) fun _ =>
    .changesThen hs (.check hR _ _) fun _ => .changesThen hs (.check hR _ _) fun _ =>
    .changesThen hs (.check hR _ _) fun _ => setSegThenMark_storesAt hq sel _ _ 1

end

theorem loadSS_storesAt (hq : .ss ∈ segs) (sel : Half) :
    Keeps (StoresAt regs segs fun s => s.markStores sel) (loadSS sel) := by
  have hR := changes_preserved [] 0
  have hs := stable_markStores sel
  exact .changesThen hs (.get hR) fun s => .changesThen hs (.check hR _ _) fun _ =>
    .changesThen hs (readDescriptor_keeps hR changes_mark _ _ _) fun _ => .changesThen hs (.check hR _ _) fun _ =>
    .changesThen hs (.check hR _ _) fun _ => .changesThen hs (.check hR _ _) fun _ =>
    .changesThen hs (.check hR _ _) fun _ => setSegThenMark_storesAt hq sel _ _ 1

theorem loadSReg_storesAt {q : SReg} (hq : q ∈ segs) (sel : Half) :
    Keeps (StoresAt regs segs fun s => s.loadStores sel) (loadSReg q sel) := by
  refine .getBind fun s b t h => ?_
  rw [StoresAt, State.loadStores]
  cases hpe : s.pe with
  | false =>
    rw [if_neg (by simp [hpe])] at h
    cases h
    exact setSeg_storesAt hq s _ fun _ => []
  | true =>
    rw [if_pos hpe] at h
    split at h
    · next hss => subst hss; exact loadSS_storesAt hq sel s b t h
    · exact loadDataSeg_storesAt hq sel s b t h

theorem writeRM_storesAt {w : Size} {rm : RM} (hrm : ∀ s, (locate s rm).regs w ⊆ regs) (v : BitVec w.bits) :
    Keeps (StoresAt regs segs fun s => s.locStores w (locate s rm)) (writeRM w rm v) :=
  fun s _ _ h => Frame.keeps_mono (writeLoc_frame ((changes_preserved [] 0).refl s) h) (hrm s)

/-! ### Pushes (43_stack R333 to R336, R340, R345) -/

section
variable (hesp : .esp ∈ regs)
include hesp

theorem pushReg_storesAt (w : Size) (r : Reg) :
    Keeps (StoresAt regs segs fun s => [s.pushStore w.bytes]) (pushReg w r) :=
  .changesThen (stable_pushStore _) (readReg_keeps (changes_preserved _ _) w r) fun _ => push_storesAt hesp _ _

theorem pushRM_storesAt (w : Size) (rm : RM) :
    Keeps (StoresAt regs segs fun s => [s.pushStore w.bytes]) (pushRM w rm) :=
  .changesThen (stable_pushStore _) (readRM_keeps (changes_preserved _ _) changes_mark w rm) fun _ =>
    push_storesAt hesp _ _

theorem pushSReg_storesAt (w : Size) (r : SReg) :
    Keeps (StoresAt regs segs fun s => [s.pushStore w.bytes]) (pushSReg w r) :=
  .changesThen (stable_pushStore _) (.get (changes_preserved _ _)) fun _ =>
    .changesThen (stable_pushStore _) (selImage_keeps (changes_preserved _ _) changes_draw _ _) fun _ =>
      push_storesAt hesp _ _

theorem pushFlags_storesAt (w : Size) : Keeps (StoresAt regs segs fun s => [s.pushStore w.bytes]) (pushFlags w) :=
  .changesThen (stable_pushStore _) (.get (changes_preserved _ _)) fun _ => push_storesAt hesp _ _

theorem pushList_storesAt (n : Nat) (vs : List Nat) :
    Keeps (StoresAt regs segs fun s => s.pushStores n vs) (pushList n vs) := by
  induction vs with
  | nil => exact fun s b t h => by cases h; exact ((changes_preserved _ _).refl s).storesAt _
  | cons v vs ih =>
    intro s b t h
    obtain ⟨_, u, hpush, hrest⟩ := bind_ok.1 h
    refine Frame.keeps_trans (push_storesAt hesp n v s _ u hpush) (ih u b t hrest) fun hw a ha => ?_
    obtain ⟨hslot, hslots⟩ := List.forall_mem_cons.1 ha
    rw [push_ok hw hpush]
    exact ⟨List.forall_mem_singleton.2 hslot, hslots⟩

theorem pushAll_storesAt (w : Size) :
    Keeps (StoresAt regs segs fun s => s.pushStores w.bytes (pushaValues w s)) (pushAll w) :=
  fun s => pushList_storesAt hesp w.bytes (pushaValues w s) s

/-! ### Pops (43_stack R337 to R339, R341, R346, R347) -/

/-- What comes after a pop stores where the state after a pop of the top of the stack does. -/
theorem popThen_storesAt {n : Nat} {f : Nat → Exec Unit} {stores : Nat → State → List Store}
    (hf : ∀ v, Keeps (StoresAt regs segs (stores v)) (f v)) :
    Keeps (StoresAt regs segs fun s => stores (s.top n) (s.popped n)) (pop n >>= f) := by
  intro s b t h
  obtain ⟨v, _, hpop, hrest⟩ := bind_ok.1 h
  obtain ⟨u, hsu, rfl, hplain⟩ := pop_ok hpop
  have hpopped : Changes regs 0 s (u.popped n) :=
    (changes_preserved _ _).trans _ _ _ (hsu.mono (List.nil_subset _)) (setStackPointer_changes hesp u _)
  refine Frame.keeps_trans (hpopped.storesAt fun s => stores (s.top n) (s.popped n)) (hf v _ b t hrest)
    fun hw a ha => ⟨ha, ?_⟩
  obtain ⟨rfl, rfl⟩ := hplain hw
  exact ha

theorem popSReg_storesAt {q : SReg} (hq : q ∈ segs) (w : Size) :
    Keeps (StoresAt regs segs fun s => (s.popped w.bytes).loadStores (BitVec.ofNat 16 (s.top w.bytes))) (popSReg w q) :=
  popThen_storesAt (stores := fun v s => s.loadStores (BitVec.ofNat 16 v)) hesp fun _ => loadSReg_storesAt hq _

theorem popRM_storesAt {w : Size} {rm : RM} (hrm : ∀ s, (locate s rm).regs w ⊆ regs) :
    Keeps (StoresAt regs segs fun s => (s.popped w.bytes).locStores w (locate (s.popped w.bytes) rm)) (popRM w rm) :=
  popThen_storesAt (stores := fun _ s => s.locStores w (locate s rm)) hesp fun _ => writeRM_storesAt hrm _

end

/-- A register operand is the same in every state. -/
theorem locate_regs (s t : State) (w : Size) (rm : RM) : (locate s rm).regs w = (locate t rm).regs w := by
  cases rm <;> rfl

theorem maskedFlags_within (priv0 ioPriv : Bool) (v : Word) :
    FlagsWithin 0x7FD7 fun fl => maskedFlags (popMask priv0 ioPriv) fl v := by
  have hout : ∀ k < 32, (0x7FD7 : Word).getLsbD k = false → k ≠ 1 ∧ ∀ b c, (popMask b c).getLsbD k = false := by decide
  intro fl
  refine BitVec.eq_of_getLsbD_eq fun k hk => ?_
  simp only [BitVec.getLsbD_and, BitVec.getLsbD_not, getLsbD_maskedFlags _ _ _ hk]
  cases hb : (0x7FD7 : Word).getLsbD k with
  | true => simp
  | false =>
    obtain ⟨hone, hmask⟩ := hout k hk hb
    simp [hone, hmask]

/-- Settles O56: a push stores one slot and PUSHA eight, a pop what its destination needs, and the pointer moves. -/
theorem stackFrames : Obligations.StackFrames := by
  unfold Obligations.StackFrames
  rintro s rm r iz ib _ _ rfl rfl
  have hR := changes_preserved
  have hesp : Reg.esp ∈ [Reg.esp] := List.mem_singleton.2 rfl
  simp only [List.forall_mem_cons, List.not_mem_nil, false_implies, implies_true, and_true]
  have hsreg := fun q => pushSReg_storesAt (segs := []) hesp s.ctx.osz q
  have himm := fun v => push_storesAt (segs := []) hesp s.ctx.osz.bytes v
  refine ⟨⟨framed_of_storesAt rfl (pushReg_storesAt hesp s.ctx.osz r), framed_of_storesAt rfl (himm _),
    framed_of_storesAt rfl (himm _), framed_of_storesAt rfl (pushRM_storesAt hesp s.ctx.osz rm),
    framed_of_storesAt rfl (hsreg .es), framed_of_storesAt rfl (hsreg .cs), framed_of_storesAt rfl (hsreg .ss),
    framed_of_storesAt rfl (hsreg .ds), framed_of_storesAt rfl (hsreg .fs), framed_of_storesAt rfl (hsreg .gs),
    framed_of_storesAt rfl (pushFlags_storesAt hesp s.ctx.osz)⟩, ?_, ?_, fun i q hi => ?_, ?_, ?_, ?_, ?_⟩
  · exact framed_of_keeps rfl (popReg_keeps (hR _ _) changes_mark (changes_reg (by simp))
      (changes_reg (by simp [viewHome, osz_ne_b8 s.ctx])))
  · exact framed_of_storesAt rfl (popRM_storesAt (by simp) fun t =>
      locate_regs t (s.popped s.ctx.osz.bytes) s.ctx.osz rm ▸ List.subset_cons_self _ _)
  · exact framed_of_storesAt (exec_popSReg s hi) (popSReg_storesAt hesp (List.mem_singleton.2 rfl) s.ctx.osz)
  · exact framed_of_storesAt rfl (pushAll_storesAt hesp s.ctx.osz)
  · exact framed_of_keeps rfl (popAll_keeps (hR _ _) changes_mark (fun r => changes_reg (by cases r <;> decide)) _)
  · exact framed_of_keeps rfl (popFlags_keeps (hR _ _) changes_mark (changes_reg hesp)
      (fun s v => changes_flags (maskedFlags_within s.priv0 s.ioPriv v) s) _)
  · exact framed_of_keeps rfl (leaveFrame_keeps (hR _ _) changes_mark (changes_reg (by simp))
      (changes_reg (by simp [viewHome, osz_ne_b8 s.ctx])))

end Sys2Proof.Machine
end

section
/-! PROOF. The system instructions (44_protected_mode R360 to R392): with the privilege they need and accessible operands each
runs to one named state, and without that privilege each stops at its check. -/

namespace Sys2Proof.Machine

variable {s t : State}

/-! ### The checks of mode and privilege (44_protected_mode R360, 30_encoding R211) -/

theorem privCheck_run (h : s.priv0 = true) : privCheck s = .ok ((), s) := by
  simp only [privCheck, bind_run, get_run, h, check_true]

theorem protectedOnly_run (h : s.pe = true) : protectedOnly s = .ok ((), s) := by
  simp only [protectedOnly, bind_run, get_run, h, check_true]

theorem State.priv0_of_cpl (h : s.cpl = 0) : s.priv0 = true := by
  rw [State.priv0, h]
  exact Bool.or_true _

theorem State.pe_of_not_priv0 (h : s.priv0 = false) : s.pe = true := by
  rw [State.priv0, Bool.or_eq_false_iff, Bool.not_eq_false'] at h
  exact h.1

theorem privCheck_error (h : s.priv0 = false) : privCheck s = .error (protection 0) := by
  simp only [privCheck, bind_run, get_run, h, check_false]

theorem ioCheck_error (h : s.ioPriv = false) : ioCheck s = .error (protection 0) := by
  simp only [ioCheck, bind_run, get_run, h, check_false]

theorem protectedOnly_error (h : s.pe = false) : protectedOnly s = .error (refuse (.encoding .realModeRow)) := by
  simp only [protectedOnly, bind_run, get_run, h, check_false]

theorem bind_run_error {α β : Type} {x : Exec α} {e : Stop} (h : x s = .error e) (f : α → Exec β) :
    (x >>= f) s = .error e := by
  rw [bind_run, h]

theorem privCheck_ok {a : Unit} (h : privCheck s = .ok (a, t)) : t = s := by
  obtain ⟨_, _, hget, hcheck⟩ := bind_ok.1 h
  cases hget
  exact (check_ok.1 hcheck).2

theorem protectedOnly_ok {a : Unit} (h : protectedOnly s = .ok (a, t)) : t = s := by
  obtain ⟨_, _, hget, hcheck⟩ := bind_ok.1 h
  cases hget
  exact (check_ok.1 hcheck).2

/-! ### Table registers (44_protected_mode R361 to R364) -/

theorem pseudoOf_eq (osz : Size) (p : Nat) : pseudoOf osz p =
    { base := if osz = .b32 then BitVec.ofNat 32 (p / 65536) else BitVec.ofNat 32 (p / 65536) &&& 0x00FFFFFF,
      limit := BitVec.ofNat 16 p } := by
  have hmask : BitVec.ofNat 32 (p / 65536 % 2 ^ 24) = BitVec.ofNat 32 (p / 65536) &&& 0x00FFFFFF := by
    refine BitVec.eq_of_toNat_eq ?_
    have hlow : (0x00FFFFFF : Word).toNat = 2 ^ 24 - 1 := rfl
    rw [BitVec.toNat_and, hlow, Nat.and_two_pow_sub_one_eq_mod, BitVec.toNat_ofNat, BitVec.toNat_ofNat]
    omega
  rw [pseudoOf, hmask]

theorem readPseudo_run (hw : s.plainWalks = true) {m : MemOp} {g : SReg} {off : Word} (hloc : (g, off) = memLoc s m)
    (hr : s.readable g off 6 = true) (osz : Size) :
    readPseudo osz m s = .ok (pseudoOf osz (s.loadFrom g off 6), s) := by
  simp only [readPseudo, bind_run, get_run, ← hloc, segRead_run hw hr, pseudoOf_eq]
  rfl

theorem loadGdt_run (hw : s.plainWalks = true) {m : MemOp} {g : SReg} {off : Word} (hloc : (g, off) = memLoc s m)
    (hpriv : s.priv0 = true) (hr : s.readable g off 6 = true) (osz : Size) :
    loadGdt osz m s = .ok ((), { s with gdtr := pseudoOf osz (s.loadFrom g off 6) }) := by
  simp only [loadGdt, bind_run, privCheck_run hpriv, readPseudo_run hw hloc hr, modify_run]

theorem loadIdt_run (hw : s.plainWalks = true) {m : MemOp} {g : SReg} {off : Word} (hloc : (g, off) = memLoc s m)
    (hpriv : s.priv0 = true) (hr : s.readable g off 6 = true) (osz : Size) :
    loadIdt osz m s = .ok ((), { s with idtr := pseudoOf osz (s.loadFrom g off 6) }) := by
  simp only [loadIdt, bind_run, privCheck_run hpriv, readPseudo_run hw hloc hr, modify_run]

/-- The sixth byte is drawn with a 16-bit operand size, which does not matter for the store (44_protected_mode R363). -/
theorem storeTable_run (hw : s.plainWalks = true) {m : MemOp} {g : SReg} {off : Word} (hloc : (g, off) = memLoc s m)
    (hwr : s.writable g off 6 = true) (osz : Size) (t : TableReg) :
    storeTable osz m t s =
      .ok ((), (if osz = .b32 then s else s.drawn).storeTo g off 6 (s.pseudoImage osz t).toNat) := by
  simp only [storeTable, sixthByte, bind_run, get_run, ← hloc, State.pseudoImage]
  by_cases hosz : osz = .b32
  · simp only [if_pos hosz, pure_run, segWrite_run hw _ hwr]
  · simp only [if_neg hosz, bind_run, draw_run, pure_run]
    exact segWrite_run (s := s.drawn) hw _ (((agree_drawn s).writable g off 6).trans hwr)

/-! ### LDTR and TR (44_protected_mode R365, R366) -/

theorem loadLdtSel_run (hw : s.plainWalks = true) {sel : Half} (h : s.canLdt sel = true) :
    loadLdtSel sel s = .ok ((), { s with ldtr := s.ldtOf sel }) := by
  unfold loadLdtSel State.ldtOf
  cases hnull : isNull sel with
  | true => rfl
  | false =>
    simp only [State.canLdt, hnull, Bool.false_or, Bool.and_eq_true] at h
    obtain ⟨⟨⟨⟨hgdt, hd⟩, hsystem⟩, htype⟩, hpresent⟩ := h
    simp only [Bool.false_eq_true, if_false, bind_run, hgdt, readDescriptor_desc hw hd, hsystem, htype, hpresent,
      Bool.and_self, check_true, modify_run]

/-- The descriptor is marked after TR is written, which the mark does not depend on. -/
theorem markDescriptor_tr_run (hw : s.plainWalks = true) {sel : Half} (h : s.canMark sel = true) (v : TaskReg) (d : Desc)
    (mask : Byte) : markDescriptor sel d mask { s with tr := v } = .ok ((), State.marked { s with tr := v } sel d mask) := by
  have hmark : State.canMark { s with tr := v } sel = s.canMark sel := by
    simp only [State.canMark]
    rw [backed_agree (s := s) rfl rfl rfl rfl]
    rfl
  exact markDescriptor_run (s := { s with tr := v }) hw (hmark.trans h) d mask

theorem loadTaskSel_run (hw : s.plainWalks = true) {sel : Half} (h : s.canTask sel = true) :
    loadTaskSel sel s = .ok ((), State.marked { s with tr := s.taskOf sel } sel (s.desc sel) 2) := by
  simp only [State.canTask, Bool.and_eq_true] at h
  obtain ⟨⟨⟨⟨⟨⟨hnull, hgdt⟩, hd⟩, hsystem⟩, htype⟩, hpresent⟩, hmark⟩ := h
  simp only [loadTaskSel, bind_run, hnull, hgdt, readDescriptor_desc hw hd, hsystem, htype, hpresent, Bool.and_self,
    check_true, modify_run]
  exact markDescriptor_tr_run hw hmark _ _ _

/-- Settles O11: each operation passes its checks and runs to the state that its rule gives. -/
theorem tableRegistersRun : Obligations.TableRegistersRun := by
  unfold Obligations.TableRegistersRun
  refine fun s hw => ⟨fun m g off hloc => ⟨fun hpriv hr => ⟨?_, ?_⟩, fun hwr => ⟨?_, ?_⟩⟩,
    fun rm sel hpe hlevel hr hsel => ⟨fun h => ?_, fun h => ?_⟩⟩
  · exact seqInstr_ok hw (loadGdt_run hw hloc hpriv hr _)
  · exact seqInstr_ok hw (loadIdt_run hw hloc hpriv hr _)
  · exact seqInstr_ok hw (storeTable_run hw hloc hwr _ _)
  · exact seqInstr_ok hw (storeTable_run hw hloc hwr _ _)
  · subst hsel
    refine seqInstr_ok (body := loadLdt rm) hw ?_
    simp only [loadLdt, bind_run, protectedOnly_run hpe, privCheck_run (State.priv0_of_cpl hlevel), readRM_run hw hr]
    exact loadLdtSel_run hw h
  · subst hsel
    refine seqInstr_ok (body := loadTask rm) hw ?_
    simp only [loadTask, bind_run, protectedOnly_run hpe, privCheck_run (State.priv0_of_cpl hlevel), readRM_run hw hr]
    exact loadTaskSel_run hw h

/-! ### Control and debug registers (44_protected_mode R370 to R392) -/

theorem clobberFlags_run (s : State) : clobberFlags s = .ok ((), s.clobbered) := rfl

theorem moveToControl_run (h : s.priv0 = true) (k : CReg) (r : Reg) :
    moveToControl k r s = .ok ((), (s.setCreg k (s.reg r)).clobbered) := by
  simp only [moveToControl, bind_run, privCheck_run h, modify_run, clobberFlags_run]

theorem moveFromControl_run (h : s.priv0 = true) (r : Reg) (k : CReg) :
    moveFromControl r k s = .ok ((), (s.setReg r (s.creg k)).clobbered) := by
  simp only [moveFromControl, bind_run, privCheck_run h, modify_run, clobberFlags_run]

theorem moveToDebug_run (h : s.priv0 = true) (k : DReg) (r : Reg) :
    moveToDebug k r s = .ok ((), State.clobbered { s with dr := s.dr.set k (s.reg r) }) := by
  simp only [moveToDebug, bind_run, privCheck_run h, modify_run, clobberFlags_run]

theorem moveFromDebug_run (h : s.priv0 = true) (r : Reg) (k : DReg) :
    moveFromDebug r k s = .ok ((), (s.setReg r (s.dr.get k)).clobbered) := by
  simp only [moveFromDebug, bind_run, privCheck_run h, modify_run, clobberFlags_run]

/-- LMSW replaces bits 3 to 1 and can only set bit 0 (44_protected_mode R373). -/
theorem lmswValue_eq (cr0 : Word) (v : Half) : lmswValue cr0 v =
    cr0.extractLsb' 4 28 ++ v.extractLsb' 1 3 ++ (cr0.extractLsb' 0 1 ||| v.extractLsb' 0 1) := by
  have hmasks : ∀ k < 32, (~~~(0xE : Word)).getLsbD k = (k == 0 || decide (4 ≤ k)) ∧
      (0xF : Word).getLsbD k = decide (k < 4) := by decide
  refine BitVec.eq_of_getLsbD_eq fun k hk => ?_
  obtain ⟨hkeep, htake⟩ := hmasks k hk
  simp only [lmswValue, BitVec.getLsbD_or, BitVec.getLsbD_and, hkeep, htake, BitVec.getLsbD_append,
    BitVec.getLsbD_extractLsb', BitVec.getLsbD_setWidth, hk]
  obtain rfl | ⟨hlow, hhigh⟩ | hhigh : k = 0 ∨ (1 ≤ k ∧ k < 4) ∨ 4 ≤ k := by omega
  · simp
  · rw [if_neg (by omega), if_pos (by omega), show 1 + (k - 1) = k by omega]
    simp [show k ≠ 0 by omega, hhigh, show k - 1 < 3 by omega]
  · rw [if_neg (by omega), if_neg (by omega), show 4 + (k - 1 - 3) = k by omega]
    simp [hhigh, show ¬k < 4 by omega, show k - 1 - 3 < 28 by omega]

theorem loadMsw_run (hw : s.plainWalks = true) (h : s.priv0 = true) {rm : RM}
    (hr : s.locReadable .b16 (locate s rm) = true) :
    loadMsw rm s = .ok ((), { s with cr0 := lmswValue s.cr0 (s.locValue .b16 (locate s rm)) }) := by
  simp only [loadMsw, bind_run, privCheck_run h, readRM_run hw hr, modify_run]

theorem setInterruptFlag_run (h : s.ioPriv = true) (v : Bool) :
    setInterruptFlag v s = .ok ((), s.withFlags (setFlag .intf v)) := by
  simp only [setInterruptFlag, bind_run, get_run, h, check_true, modifyFlags_run]
  rfl

/-- Settles O12: after its privilege check each operation is one write, and a move clobbers the status flags then. -/
theorem controlRegistersRun : Obligations.ControlRegistersRun := by
  unfold Obligations.ControlRegistersRun
  refine fun s hw => ⟨fun hpriv => ⟨fun md r k => ⟨?_, ?_⟩, fun md r k => ⟨?_, ?_⟩, fun rm hr => ?_, ?_, ?_⟩,
    fun hio => ⟨?_, ?_⟩⟩
  · exact seqInstr_ok hw (moveToControl_run hpriv k r)
  · exact seqInstr_ok hw (moveFromControl_run hpriv r k)
  · exact seqInstr_ok hw (moveToDebug_run hpriv k r)
  · exact seqInstr_ok hw (moveFromDebug_run hpriv r k)
  · rw [← lmswValue_eq]
    exact seqInstr_ok hw (loadMsw_run hw hpriv hr)
  · refine seqInstr_ok (body := clearTs) hw ?_
    simp only [clearTs, bind_run, privCheck_run hpriv, modify_run]
    rfl
  · refine seqInstr_ok (body := haltCore) hw ?_
    simp only [haltCore, bind_run, privCheck_run hpriv, modify_run]
  · exact seqInstr_ok hw (setInterruptFlag_run hio false)
  · exact seqInstr_ok hw (setInterruptFlag_run hio true)

/-! ### Segment registers and selectors (44_protected_mode R367 to R386) -/

theorem moveToSeg_run (hw : s.plainWalks = true) {r : SReg} {rm : RM} (hr : s.locReadable .b16 (locate s rm) = true)
    (hl : s.canLoad r (s.locValue .b16 (locate s rm)) = true) :
    moveToSeg r rm s = .ok ((), s.loaded r (s.locValue .b16 (locate s rm))) := by
  simp only [moveToSeg, bind_run, readRM_run hw hr]
  exact loadSReg_run hw hl

theorem loadFarPointer_run (hw : s.plainWalks = true) {m : MemOp} {g : SReg} {off : Word} {osz : Size} {p : Nat}
    (hloc : (g, off) = memLoc s m) (hr : s.readable g off (osz.bytes + 2) = true)
    (hp : p = s.loadFrom g off (osz.bytes + 2)) {r : SReg} (hl : s.canLoad r (farSelector osz p) = true) (d : Reg) :
    loadFarPointer r osz d m s =
      .ok ((), (s.loaded r (farSelector osz p)).setView osz d (BitVec.ofNat _ p)) := by
  subst hp
  have hload := loadSReg_run hw hl
  rw [farSelector] at hload
  simp only [loadFarPointer, bind_run, get_run, ← hloc, segRead_run hw hr, hload, writeReg_run]
  rfl

/-- The loads of far pointers are one operation (44_protected_mode R382 to R386). -/
theorem exec_loadFarPointer {i : Reg → Instr} {r : SReg} {m : MemOp} (s : State) (d : Reg)
    (hi : (i = (Instr.lesRvMem · m) ∧ r = .es) ∨ (i = (.ldsRvMem · m) ∧ r = .ds) ∨ (i = (.lssRvMem · m) ∧ r = .ss) ∨
      (i = (.lfsRvMem · m) ∧ r = .fs) ∨ (i = (.lgsRvMem · m) ∧ r = .gs)) :
    exec (i d) s = seqInstr (loadFarPointer r s.ctx.osz d m) s := by
  obtain ⟨rfl, rfl⟩ | ⟨rfl, rfl⟩ | ⟨rfl, rfl⟩ | ⟨rfl, rfl⟩ | ⟨rfl, rfl⟩ := hi <;> rfl

/-- The state after a 16-bit system value is stored, before EIP moves on (44_protected_mode R367). -/
def State.halfWritten (s : State) (osz : Size) (l : Loc) (v : Half) : State :=
  match l with
  | .mem g off => s.storeTo g off 2 v.toNat
  | .reg r => if osz = .b32 then s.drawn.setReg r (s.free.extractLsb' 16 16 ++ v) else s.setView .b16 r v

theorem State.halfStored_eq (s : State) (osz : Size) (l : Loc) (v : Half) :
    s.halfStored osz l v = (s.halfWritten osz l v).advanced := by
  cases l with
  | mem g off => rfl
  | reg r => simp only [State.halfStored, State.halfWritten]; split <;> rfl

theorem storeHalf_run (hw : s.plainWalks = true) {rm : RM} (h : s.locWritable .b16 (locate s rm) = true) (osz : Size)
    (v : Half) : storeHalf osz rm v s = .ok ((), s.halfWritten osz (locate s rm) v) := by
  simp only [storeHalf, bind_run, get_run]
  cases rm with
  | mem m => exact segWrite_run hw _ h
  | reg r =>
    simp only [locate, State.halfWritten]
    split <;> rfl

theorem seqInstr_storeHalf (hw : s.plainWalks = true) {rm : RM} (h : s.locWritable .b16 (locate s rm) = true)
    (osz : Size) (v : Half) : seqInstr (storeHalf osz rm v) s = .next (s.halfStored osz (locate s rm) v) :=
  s.halfStored_eq osz _ v ▸ seqInstr_ok hw (storeHalf_run hw h osz v)

theorem seqInstr_storeProtected (hw : s.plainWalks = true) (hpe : s.pe = true) {rm : RM}
    (h : s.locWritable .b16 (locate s rm) = true) (osz : Size) (v : Half) :
    seqInstr (storeProtected osz rm v) s = .next (s.halfStored osz (locate s rm) v) := by
  rw [State.halfStored_eq]
  refine seqInstr_ok hw ?_
  simp only [storeProtected, bind_run, protectedOnly_run hpe]
  exact storeHalf_run hw h osz v

/-- Settles O13: the loads read a selector and load it, the stores write one 16-bit value. -/
theorem selectorMovesRun : Obligations.SelectorMovesRun := by
  unfold Obligations.SelectorMovesRun
  refine ⟨fun s rm r _ hr hl => ?_, fun s m g off p hw hloc hr hp i r hi hl d => ?_, fun s rm h => ?_⟩
  · obtain ⟨hw, hr⟩ := canRead_iff hr
    exact seqInstr_ok hw (moveToSeg_run hw hr hl)
  · exact (exec_loadFarPointer s d hi).trans (seqInstr_ok hw (loadFarPointer_run hw hloc hr hp hl d))
  · obtain ⟨hw, h⟩ := canWrite_iff h
    exact ⟨fun r => seqInstr_storeHalf hw h _ _, seqInstr_storeHalf hw h _ _,
      fun hpe => ⟨seqInstr_storeProtected hw hpe h _ _, seqInstr_storeProtected hw hpe h _ _⟩⟩

/-! ### Traps (44_protected_mode R360, 42_string_io R319, 30_encoding R211) -/

/-- A check that fails first is the step of the instruction: #GP(0). -/
theorem seqInstr_protection (hw : s.plainWalks = true) {body : Exec Unit} (h : body s = .error (protection 0)) :
    seqInstr body s = s.faulted 13 (some 0) :=
  seqInstr_raise (r := ⟨13, some 0, none⟩) hw h

theorem stringInstr_protection (hw : s.plainWalks = true) (hcount : s.repeatEmpty = false) {body : Exec Unit}
    (h : body s = .error (protection 0)) (zterm : Bool) :
    runInstr (stringStep body zterm) s = s.faulted 13 (some 0) := by
  refine runInstr_raise (r := ⟨13, some 0, none⟩) hw ?_
  rw [stringStep_run, hcount, if_neg Bool.false_ne_true]
  exact bind_run_error h _

theorem exec_privileged (hw : s.plainWalks = true) (hpriv : s.priv0 = false) {i : Instr} {x : Exec Unit}
    (hi : exec i s = seqInstr (privCheck >>= fun _ => x) s) : exec i s = s.faulted 13 (some 0) :=
  hi.trans (seqInstr_protection hw (bind_run_error (privCheck_error hpriv) _))

theorem exec_privileged_protectedOnly (hw : s.plainWalks = true) (hpriv : s.priv0 = false) {i : Instr} {x : Exec Unit}
    (hi : exec i s = seqInstr (protectedOnly >>= fun _ => privCheck >>= fun _ => x) s) :
    exec i s = s.faulted 13 (some 0) := by
  refine hi.trans (seqInstr_protection hw ?_)
  rw [bind_run, protectedOnly_run (State.pe_of_not_priv0 hpriv)]
  exact bind_run_error (privCheck_error hpriv) _

theorem exec_ioPrivileged (hw : s.plainWalks = true) (hio : s.ioPriv = false) {i : Instr} {x : Exec Unit}
    (hi : exec i s = seqInstr (ioCheck >>= fun _ => x) s) : exec i s = s.faulted 13 (some 0) :=
  hi.trans (seqInstr_protection hw (bind_run_error (ioCheck_error hio) _))

theorem exec_ioPrivileged_string (hw : s.plainWalks = true) (hio : s.ioPriv = false) (hcount : s.repeatEmpty = false)
    {i : Instr} {x : Exec Unit} (hi : exec i s = runInstr (stringStep (ioCheck >>= fun _ => x) false) s) :
    exec i s = s.faulted 13 (some 0) :=
  hi.trans (stringInstr_protection hw hcount (bind_run_error (ioCheck_error hio) _) false)

theorem exec_realModeRow (hw : s.plainWalks = true) (hpe : s.pe = false) {i : Instr} {x : Exec Unit}
    (hi : exec i s = seqInstr (protectedOnly >>= fun _ => x) s) :
    exec i s = .refused (.unimplemented (.encoding .realModeRow) s) :=
  hi.trans (seqInstr_error hw (bind_run_error (protectedOnly_error hpe) _))

/-- Settles O14: each of these instructions begins with the check that fails. -/
theorem privilegeTraps : Obligations.PrivilegeTraps := by
  unfold Obligations.PrivilegeTraps
  refine ⟨fun s i hw hpriv hi => ?_, fun s i hw hio hi => ?_, fun s rm hw hpe => ⟨?_, ?_, ?_, ?_⟩⟩
  · obtain ⟨m, rfl⟩ | ⟨m, rfl⟩ | ⟨rm, rfl⟩ | ⟨rm, rfl⟩ | ⟨rm, rfl⟩ | rfl | rfl | ⟨md, r, k, rfl⟩ | ⟨md, r, k, rfl⟩ |
      ⟨md, r, k, rfl⟩ | ⟨md, r, k, rfl⟩ := hi
    case inr.inr.inl | inr.inr.inr.inl => exact exec_privileged_protectedOnly hw hpriv rfl
    all_goals exact exec_privileged hw hpriv rfl
  · obtain rfl | rfl | ⟨ib, rfl | rfl | rfl | rfl⟩ | rfl | rfl | rfl | rfl | ⟨hcount, hi⟩ := hi
    case inr.inr.inr.inr.inr.inr.inr =>
      obtain rfl | rfl | rfl | rfl := hi <;> exact exec_ioPrivileged_string hw hio hcount rfl
    all_goals exact exec_ioPrivileged hw hio rfl
  · exact exec_realModeRow hw hpe rfl
  · exact exec_realModeRow hw hpe rfl
  · exact exec_realModeRow hw hpe rfl
  · exact exec_realModeRow hw hpe rfl

end Sys2Proof.Machine
end

section
/-! PROOF. Outside level 0 no step changes a system register or the I/O privilege level (44_protected_mode R360; 43_stack
R346; 46_control_transfer R470): the privileged instructions stop at their check, POPF and IRET leave IOPL out of their mask,
and no other instruction and no delivery writes either. -/

namespace Sys2Proof.Machine

variable {s t : State}

/-! ### The I/O privilege level (10_state R38) -/

/-- The part of EFLAGS that holds IOPL. -/
def ioplOf (fl : Word) : BitVec 2 :=
  fl.extractLsb' 12 2

theorem ioplOf_congr {fl fl' : Word} (h : ∀ k, k = 12 ∨ k = 13 → fl'.getLsbD k = fl.getLsbD k) :
    ioplOf fl' = ioplOf fl := by
  refine BitVec.eq_of_getLsbD_eq fun k hk => ?_
  simp only [ioplOf, BitVec.getLsbD_extractLsb', hk]
  rw [h (12 + k) (by omega)]

theorem ioplOf_setFlag (f : Flag) (b : Bool) (fl : Word) : ioplOf (setFlag f b fl) = ioplOf fl := by
  have hpos : f.pos ≠ 12 ∧ f.pos ≠ 13 := by cases f <;> decide
  refine ioplOf_congr fun k hk => ?_
  rw [getLsbD_setFlag, if_neg (by omega)]

theorem ioplOf_sahfFlags (ah : Byte) (fl : Word) : ioplOf (sahfFlags fl ah) = ioplOf fl := by
  have hmask : ∀ k, k = 12 ∨ k = 13 → (0xFFFFFF00 : Word).getLsbD k = true ∧ (0xD5 : Word).getLsbD k = false ∧
      (0x00000002 : Word).getLsbD k = false := by
    rintro k (rfl | rfl) <;> decide
  refine ioplOf_congr fun k hk => ?_
  obtain ⟨hold, hah, hfixed⟩ := hmask k hk
  simp only [sahfFlags, BitVec.getLsbD_or, BitVec.getLsbD_and, hold, hah, hfixed, Bool.and_true, Bool.and_false,
    Bool.or_false]

/-- Outside level 0 POPF and IRET leave IOPL as it is (43_stack R346). -/
theorem ioplOf_maskedFlags (ioPriv : Bool) (old new : Word) :
    ioplOf (maskedFlags (popMask false ioPriv) old new) = ioplOf old := by
  refine ioplOf_congr fun k hk => ?_
  rw [getLsbD_maskedFlags _ _ _ (by omega), getLsbD_popMask _ _ k (by omega)]
  obtain rfl | rfl := hk <;> simp

theorem ioplOf_realFlags (fl : Word) : ioplOf (realFlags fl) = ioplOf fl := by
  simp only [realFlags, ioplOf_setFlag]

theorem ioplOf_gateFlags (g : BitVec 4) (fl : Word) : ioplOf (gateFlags g fl) = ioplOf fl := by
  unfold gateFlags
  split <;> simp only [ioplOf_setFlag]

/-! ### What a step outside level 0 keeps -/

/-- The system registers but CR2, the parameters and IOPL. -/
def State.guarded (s : State) :=
  (s.tables, ioplOf s.eflags)

/-- With no host handler registered the guarded part of the state stays as it is. -/
def KeepsGuarded (s t : State) : Prop :=
  s.noHandlers = true → t.guarded = s.guarded

theorem State.noHandlers_of_guarded (h : t.guarded = s.guarded) : t.noHandlers = s.noHandlers := by
  simp only [State.guarded, State.tables, Prod.mk.injEq] at h
  obtain ⟨⟨_, _, _, _, _, _, _, hparams⟩, _⟩ := h
  rw [State.noHandlers, hparams, State.noHandlers]

theorem KeepsGuarded.of_eq (h : t.guarded = s.guarded) : KeepsGuarded s t := fun _ => h

theorem KeepsGuarded.of_flags {fl : Word} (h : ioplOf fl = ioplOf s.eflags) : KeepsGuarded s { s with eflags := fl } :=
  fun _ => by rw [State.guarded, h]; rfl

theorem keepsGuarded_preserved : Preserved KeepsGuarded where
  refl := fun _ _ => rfl
  trans := fun _ _ _ h k hn => (k ((State.noHandlers_of_guarded (h hn)).trans hn)).trans (h hn)

theorem keepsGuarded_enter : OfEnter KeepsGuarded := by
  rintro s eip clear hclear _
  have hiopl : ioplOf (clear s.eflags) = ioplOf s.eflags := by
    obtain rfl | ⟨g, rfl⟩ := hclear
    · exact ioplOf_realFlags _
    · exact ioplOf_gateFlags _ _
  rw [State.guarded, hiopl]
  rfl

theorem keepsGuarded_write : OfWrite KeepsGuarded := fun _ _ _ _ => .of_eq rfl

theorem keepsGuarded_draw : OfDraw KeepsGuarded := fun _ => .of_eq rfl

theorem keepsGuarded_reg (r : Reg) : OfReg KeepsGuarded r := fun _ _ => .of_eq rfl

theorem keepsGuarded_seg (r : SReg) : OfSeg KeepsGuarded r := fun _ _ => .of_eq rfl

theorem keepsGuarded_eip : OfEip KeepsGuarded := fun _ _ => .of_eq rfl

theorem keepsGuarded_flag (f : Flag) : OfFlag KeepsGuarded f := fun _ _ => .of_flags (ioplOf_setFlag _ _ _)

theorem keepsGuarded_event : OfEvent KeepsGuarded := fun _ _ => .of_eq rfl

theorem deliver_keepsGuarded (vec : Byte) (src : Source) (err : Option Half) (ret : Word) :
    Keeps KeepsGuarded (deliver vec src err ret) :=
  deliver_keeps keepsGuarded_preserved keepsGuarded_write keepsGuarded_draw (keepsGuarded_reg _) (keepsGuarded_seg _)
    (keepsGuarded_seg _) keepsGuarded_enter vec src err ret

theorem softInt_keepsGuarded (vec : Byte) : Keeps KeepsGuarded (softInt vec) := by
  intro s a t h hn
  rw [softInt_run hn] at h
  exact deliver_keepsGuarded _ _ _ _ s a t h hn

theorem withCr2_keepsGuarded (s : State) (v : Option Word) : KeepsGuarded s (s.withCr2 v) :=
  .of_eq (by simp [State.guarded, State.tables])

theorem deliverEvent_keepsGuarded {vec : Byte} {src : Source} {err : Option Half} {ret : Word}
    (h : deliverEvent vec src err ret s = .next t) : KeepsGuarded s t :=
  deliverEvent_keeps keepsGuarded_preserved (fun _ _ => .of_eq rfl) withCr2_keepsGuarded deliver_keepsGuarded h

/-- Not at level 0 of protected mode, the guarded part of the state stays as it is. -/
def KeepsOutside (s t : State) : Prop :=
  s.priv0 = false → KeepsGuarded s t

theorem Keeps.outside {x : Exec Unit} (h : Keeps KeepsGuarded x) : Keeps KeepsOutside x :=
  h.mono fun _ _ h _ => h

/-- A privileged instruction stops at its check (44_protected_mode R360). -/
theorem privCheck_keepsOutside (x : Exec Unit) : Keeps KeepsOutside (privCheck >>= fun _ => x) := by
  intro s a t h hpriv
  rw [bind_run_error (privCheck_error hpriv)] at h
  cases h

/-- So do LLDT and LTR, after the check of the mode (44_protected_mode R365, R366). -/
theorem protectedOnly_keepsOutside (x : Exec Unit) :
    Keeps KeepsOutside (protectedOnly >>= fun _ => privCheck >>= fun _ => x) := by
  intro s a t h
  obtain ⟨_, u, hmode, hrest⟩ := bind_ok.1 h
  obtain rfl := protectedOnly_ok hmode
  exact privCheck_keepsOutside x u a t hrest

theorem popFlags_keepsOutside (w : Size) : Keeps KeepsOutside (popFlags w) := by
  intro s a t h hpriv
  obtain ⟨v, u, hpop, h⟩ := bind_ok.1 h
  cases h
  have hlevel : u.priv0 = s.priv0 :=
    pop_keeps (R := fun s t : State => t.priv0 = s.priv0) ⟨fun _ => rfl, fun _ _ _ h k => k.trans h⟩
      (fun _ _ _ _ _ => rfl) (fun _ _ => rfl) _ s v u hpop
  have hsu := pop_keeps keepsGuarded_preserved keepsGuarded_write.mark (keepsGuarded_reg _) _ s v u hpop
  refine keepsGuarded_preserved.trans s u _ hsu (.of_flags ?_)
  rw [hlevel, hpriv]
  exact ioplOf_maskedFlags _ _ _

/-- The mask of IRET is that of the level it starts at (46_control_transfer R470). -/
theorem interruptReturn_keepsOutside (osz : Size) : Keeps KeepsOutside (interruptReturn osz) := by
  have hR := keepsGuarded_preserved
  have hm := keepsGuarded_write.mark
  have hpop := fun n => pop_keeps hR hm (keepsGuarded_reg .esp) n
  refine .getBind fun s b t h hpriv => ?_
  refine Keeps.bind hR (.check hR _ _) (fun _ => .bind hR (hpop _) fun _ => .bind hR (hpop _) fun _ =>
    .bind hR (hpop _) fun _ => .bind hR (.check hR _ _) fun _ => .bind hR
      (returnTo_keeps hR hm keepsGuarded_draw (keepsGuarded_reg _) keepsGuarded_seg keepsGuarded_eip _ _ _ _)
    fun _ => .modify fun x => .of_flags ?_) s b t h
  rw [hpriv]
  exact ioplOf_maskedFlags _ _ _

/-! ### Every instruction -/

/-- A step of an instruction whose body keeps a relation. -/
def RunsKeeping (R : State → State → Prop) (x : Step) (s : State) : Prop :=
  ∃ body, x = runInstr body s ∧ Keeps R body

theorem runsOutside_run {x : Exec Unit} (h : Keeps KeepsGuarded x) : RunsKeeping KeepsOutside (runInstr x s) s :=
  ⟨x, rfl, h.outside⟩

theorem runsOutside_seq {x : Exec Unit} (h : Keeps KeepsGuarded x) : RunsKeeping KeepsOutside (seqInstr x s) s :=
  runsOutside_run (.bind keepsGuarded_preserved h fun _ => advance_keeps keepsGuarded_eip)

theorem runsOutside_string {body : Exec Unit} (h : Keeps KeepsGuarded body) (zterm : Bool) :
    RunsKeeping KeepsOutside (runInstr (stringStep body zterm) s) s :=
  runsOutside_run (stringStep_keeps keepsGuarded_preserved (keepsGuarded_reg _) keepsGuarded_eip h zterm)

/-- What keeps the guarded part outside level 0 may run on to the next instruction. -/
theorem runsOutside_then {x : Exec Unit} (h : Keeps KeepsOutside x) : RunsKeeping KeepsOutside (seqInstr x s) s := by
  refine ⟨_, rfl, fun s b t hrun hpriv => ?_⟩
  obtain ⟨a, u, hx, hadvance⟩ := bind_ok.1 hrun
  cases hadvance
  exact keepsGuarded_preserved.trans s u _ (h s a u hx hpriv) (.of_eq rfl)

/-- Every instruction is a body that keeps the guarded part outside level 0. exec_runsBody does not give this: it asks that the
relation holds of what POPF and IRET write at any privilege, level 0 included, and there they write IOPL. -/
theorem exec_runsOutside (i : Instr) (s : State) : RunsKeeping KeepsOutside (exec i s) s := by
  have hR := keepsGuarded_preserved
  have hw := keepsGuarded_write
  have hm := hw.mark
  have hd := keepsGuarded_draw
  have hreg := keepsGuarded_reg
  have hseg := keepsGuarded_seg
  have he := keepsGuarded_eip
  have hev := keepsGuarded_event
  have hs : OfStatus KeepsGuarded := fun f _ => keepsGuarded_flag f
  have hrm : ∀ w rm, OfRM KeepsGuarded w rm := fun w rm => by
    cases rm with
    | reg r => exact hreg _
    | mem m => trivial
  have hadd := addOp_keeps hR hs
  have hadc := adcOp_keeps hR hs
  have hsub := subOp_keeps hR hs
  have hsbb := sbbOp_keeps hR hs
  have hand := andOp_keeps hR hs hd
  have hor := orOp_keeps hR hs hd
  have hxor := xorOp_keeps hR hs hd
  have hinc := incOp_keeps hR hs
  have hdec := decOp_keeps hR hs
  have hneg := negOp_keeps hR hs
  have hnot := notOp_keeps hR
  cases i with
  -- 44_protected_mode R360: the instructions of level 0
  | lgdtM | lidtM | lmswRm16 | clts | hlt | movCrR32 | movR32Cr | movDrR32 | movR32Dr =>
    exact runsOutside_then (privCheck_keepsOutside _)
  | lldtRm16 | ltrRm16 => exact runsOutside_then (protectedOnly_keepsOutside _)
  -- 43_stack R346, 46_control_transfer R470: the mask of POPF and IRET
  | popf => exact runsOutside_then (popFlags_keepsOutside _)
  | iret => exact ⟨_, rfl, interruptReturn_keepsOutside _⟩
  -- 40_arithmetic, 41_logic_shift
  | addRm8R8 | addRmvRv | orRm8R8 | orRmvRv | adcRm8R8 | adcRmvRv | sbbRm8R8 | sbbRmvRv | andRm8R8 | andRmvRv
  | subRm8R8 | subRmvRv | xorRm8R8 | xorRmvRv =>
    exact runsOutside_seq (rmFromReg_keeps hR hw (by with_reducible assumption) (hrm _ _) _)
  | addR8Rm8 | addRvRmv | orR8Rm8 | orRvRmv | adcR8Rm8 | adcRvRmv | sbbR8Rm8 | sbbRvRmv | andR8Rm8 | andRvRmv
  | subR8Rm8 | subRvRmv | xorR8Rm8 | xorRvRmv =>
    exact runsOutside_seq (regFromRM_keeps hR hm (by with_reducible assumption) (hreg _) _)
  | addAlIb | orAlIb | adcAlIb | sbbAlIb | andAlIb | subAlIb | xorAlIb | addEaxIz | orEaxIz | adcEaxIz | sbbEaxIz
  | andEaxIz | subEaxIz | xorEaxIz =>
    exact runsOutside_seq (regFromImm_keeps hR (by with_reducible assumption) (hreg _) _)
  | addRm8Ib | orRm8Ib | adcRm8Ib | sbbRm8Ib | andRm8Ib | subRm8Ib | xorRm8Ib | addRmvIz | orRmvIz | adcRmvIz
  | sbbRmvIz | andRmvIz | subRmvIz | xorRmvIz | addRmvIbs | orRmvIbs | adcRmvIbs | sbbRmvIbs | andRmvIbs | subRmvIbs
  | xorRmvIbs =>
    exact runsOutside_seq (rmFromImm_keeps hR hw (by with_reducible assumption) (hrm _ _) _)
  | cmpRm8R8 | cmpRmvRv | testRm8R8 | testRmvRv =>
    exact runsOutside_seq (testRMReg_keeps hR hm (by with_reducible assumption) _ _ _)
  | cmpR8Rm8 | cmpRvRmv => exact runsOutside_seq (testRegRM_keeps hR hm hsub _ _ _)
  | cmpAlIb | testAlIb | cmpEaxIz | testEaxIz =>
    exact runsOutside_seq (testRegImm_keeps hR (by with_reducible assumption) _ _ _)
  | cmpRm8Ib | testRm8Ib | cmpRmvIz | testRmvIz | cmpRmvIbs =>
    exact runsOutside_seq (testRMImm_keeps hR hm (by with_reducible assumption) _ _ _)
  | incRv | decRv => exact runsOutside_seq (updateReg_keeps hR (by with_reducible assumption) (hreg _))
  | notRm8 | negRm8 | notRmv | negRmv | incRm8 | decRm8 | incRmv | decRmv =>
    exact runsOutside_seq (updateRM_keeps hR hw (by with_reducible assumption) (hrm _ _))
  | mulRm8 | mulRmv => exact runsOutside_seq (mulAcc_keeps hR hs hd hm (hreg _) (hreg _) _ _)
  | imulRm8 | imulRmv => exact runsOutside_seq (imulAcc_keeps hR hs hd hm (hreg _) (hreg _) _ _)
  | imulRvRmv => exact runsOutside_seq (imulReg_keeps hR hs hd hm (hreg _) _)
  | imulRvRmvIz | imulRvRmvIbs => exact runsOutside_seq (imulImm_keeps hR hs hd hm (hreg _) _ _)
  | divRm8 | divRmv => exact runsOutside_seq (divAcc_keeps hR hs hd hm (hreg _) (hreg _) _ _)
  | idivRm8 | idivRmv => exact runsOutside_seq (idivAcc_keeps hR hs hd hm (hreg _) (hreg _) _ _)
  | rolRm8Ib | rolRmvIb | rorRm8Ib | rorRmvIb | rclRm8Ib | rclRmvIb | rcrRm8Ib | rcrRmvIb | shlRm8Ib | shlRmvIb
  | shrRm8Ib | shrRmvIb | sarRm8Ib | sarRmvIb | rolRm8One | rolRmvOne | rorRm8One | rorRmvOne | rclRm8One | rclRmvOne
  | rcrRm8One | rcrRmvOne | shlRm8One | shlRmvOne | shrRm8One | shrRmvOne | sarRm8One | sarRmvOne | rolRm8Cl
  | rolRmvCl | rorRm8Cl | rorRmvCl | rclRm8Cl | rclRmvCl | rcrRm8Cl | rcrRmvCl | shlRm8Cl | shlRmvCl | shrRm8Cl
  | shrRmvCl | sarRm8Cl | sarRmvCl =>
    exact runsOutside_seq (shiftRM_keeps hR hs hd hw (hrm _ _) _ _)
  | shldRmvRvIb | shldRmvRvCl | shrdRmvRvIb | shrdRmvRvCl =>
    exact runsOutside_seq (doubleShiftRM_keeps hR hs hd hw (hrm _ _) _ _ _)
  | setccRm8 => exact runsOutside_seq (setOnCond_keeps hR hw (hrm _ _) _)
  -- 42_string_io
  | movsB | movsV => exact runsOutside_string (movsBody_keeps hR hw (hreg _) (hreg _) _) _
  | cmpsB | cmpsV => exact runsOutside_string (cmpsBody_keeps hR hs hm (hreg _) (hreg _) _) _
  | stosB | stosV => exact runsOutside_string (stosBody_keeps hR hw (hreg _) _) _
  | lodsB | lodsV => exact runsOutside_string (lodsBody_keeps hR hm (hreg _) (hreg _) _) _
  | scasB | scasV => exact runsOutside_string (scasBody_keeps hR hs hm (hreg _) _) _
  | insB | insV => exact runsOutside_string (insBody_keeps hR hd hev hw (hreg _) _) _
  | outsB | outsV => exact runsOutside_string (outsBody_keeps hR hev hm (hreg _) _) _
  | inAlIb | inEaxIb | inAlDx | inEaxDx => exact runsOutside_seq (inPort_keeps hR hd hev (hreg _) _ _)
  | outIbAl | outIbEax | outDxAl | outDxEax => exact runsOutside_seq (outPort_keeps hR hev _ _)
  -- 43_stack
  | pushRv => exact runsOutside_seq (pushReg_keeps hR hw (hreg _) _ _)
  | pushRmv => exact runsOutside_seq (pushRM_keeps hR hw (hreg _) _ _)
  | pushIz | pushIbs => exact runsOutside_seq (push_keeps hR hw (hreg _) _ _)
  | pushEs | pushCs | pushSs | pushDs | pushFs | pushGs => exact runsOutside_seq (pushSReg_keeps hR hd hw (hreg _) _ _)
  | popRv => exact runsOutside_seq (popReg_keeps hR hm (hreg _) (hreg _))
  | popRmv => exact runsOutside_seq (popRM_keeps hR hw (hreg _) (hrm _ _))
  | popEs | popSs | popDs | popFs | popGs => exact runsOutside_seq (popSReg_keeps hR hw (hreg _) (hseg _) _)
  | pusha => exact runsOutside_seq (pushAll_keeps hR hw (hreg _) _)
  | popa => exact runsOutside_seq (popAll_keeps hR hm hreg _)
  | pushf => exact runsOutside_seq (pushFlags_keeps hR hw (hreg _) _)
  | leave => exact runsOutside_seq (leaveFrame_keeps hR hm (hreg _) (hreg _))
  -- 44_protected_mode
  | movSregRm16 => exact runsOutside_seq (moveToSeg_keeps hR hw (hseg _) _)
  | lesRvMem | ldsRvMem | lssRvMem | lfsRvMem | lgsRvMem =>
    exact runsOutside_seq (loadFarPointer_keeps hR hw (hseg _) (hreg _) _)
  | movRm16Sreg | smswRm16 => exact runsOutside_seq (storeHalf_keeps hR hd hw (hrm _ _) _ _)
  | sldtRm16 | strRm16 => exact runsOutside_seq (storeProtected_keeps hR hd hw (hrm _ _) _ _)
  | sgdtM | sidtM => exact runsOutside_seq (storeTable_keeps hR hd hw _ _ _)
  | cli | sti => exact runsOutside_seq (setInterruptFlag_keeps hR (keepsGuarded_flag _) _)
  -- 45_data_movement
  | movRm8R8 | movRmvRv => exact runsOutside_seq (moveToRM_keeps hR hw (hrm _ _) _)
  | movR8Rm8 | movRvRmv => exact runsOutside_seq (moveToReg_keeps hR hm (hreg _) _)
  | movAlMoffs8 | movEaxMoffsv => exact runsOutside_seq (loadMoffs_keeps hR hm (hreg _) _ _)
  | movMoffs8Al | movMoffsvEax => exact runsOutside_seq (storeMoffs_keeps hR hw _ _)
  | movR8Ib | movRvIz => exact runsOutside_seq (writeReg_keeps (hreg _) _)
  | movRm8Ib | movRmvIz => exact runsOutside_seq (writeRM_keeps hR hw (hrm _ _) _)
  | xchgRm8R8 | xchgRmvRv => exact runsOutside_seq (exchangeRM_keeps hR hw (hrm _ _) (hreg _))
  | xchgEaxEcx | xchgEaxEdx | xchgEaxEbx | xchgEaxEsp | xchgEaxEbp | xchgEaxEsi | xchgEaxEdi =>
    exact runsOutside_seq (exchangeAcc_keeps hR (hreg _) (hreg _))
  | leaRvM => exact runsOutside_seq (loadAddress_keeps hR (hreg _) _)
  | movzxRvRm8 | movzxRvRm16 => exact runsOutside_seq (moveZero_keeps hR hm (hreg _) _ _)
  | movsxRvRm8 | movsxRvRm16 => exact runsOutside_seq (moveSign_keeps hR hm (hreg _) _ _)
  | cbw => exact runsOutside_seq (convertAcc_keeps hR (hreg _) _)
  | cwd => exact runsOutside_seq (extendAcc_keeps hR (hreg _))
  | xlat => exact runsOutside_seq (translateAcc_keeps hR hm (hreg _))
  | lahf => exact runsOutside_seq (loadAh_keeps hR (hreg _))
  | sahf => exact runsOutside_seq (storeAh_keeps hR fun _ _ => .of_flags (ioplOf_sahfFlags _ _))
  | nop => exact runsOutside_seq (.pure hR _)
  | clc | stc | cld | std => exact runsOutside_seq (.modify fun s => keepsGuarded_flag _ s _)
  | cmc => exact runsOutside_seq (.modify fun s => keepsGuarded_flag .cf s _)
  -- 46_control_transfer
  | jmpRel8 | jmpRelz => exact runsOutside_run (jumpRel_keeps hR he _ _)
  | jccRel8 | jccRelz => exact runsOutside_run (jumpCond_keeps hR he _ _ _)
  | jmpRmv => exact runsOutside_run (jumpRM_keeps hR hm he _ _)
  | jcxzRel8 => exact runsOutside_run (jumpCountZero_keeps hR he _ _)
  | loopRel8 | loopeRel8 | loopneRel8 => exact runsOutside_run (loopBranch_keeps hR (hreg _) he _ _ _)
  | callRelz => exact runsOutside_run (callRel_keeps hR hw (hreg _) he _ _)
  | callRmv => exact runsOutside_run (callRM_keeps hR hw (hreg _) he _ _)
  | ret | retIw => exact runsOutside_run (retNear_keeps hR hm (hreg _) he _ _)
  | jmpFarPtr => exact runsOutside_run (jumpFar_keeps hR hw (hseg _) he _ _ _)
  | jmpFarMem => exact runsOutside_run (jumpFarMem_keeps hR hw (hseg _) he _ _)
  | callFarPtr => exact runsOutside_run (callFar_keeps hR hd hw (hreg _) (hseg _) he _ _ _)
  | callFarMem => exact runsOutside_run (callFarMem_keeps hR hd hw (hreg _) (hseg _) he _ _)
  | retf | retfIw => exact runsOutside_run (retFar_keeps hR hm hd (hreg _) hseg he _ _)
  | int3 | intIb => exact runsOutside_run (softInt_keepsGuarded _)
  | into =>
    exact runsOutside_run (.bind hR (.get hR) fun _ => .ite (softInt_keepsGuarded _) (advance_keeps he))

/-! ### Every part of a step -/

theorem exec_keepsGuarded {i : Instr} (hpriv : s.priv0 = false) (h : exec i s = .next t) : KeepsGuarded s t := by
  obtain ⟨body, hi, hk⟩ := exec_runsOutside i s
  obtain ⟨r, hfault⟩ | hran := runInstr_ran (hi ▸ h)
  · exact keepsGuarded_preserved.trans s _ t (withCr2_keepsGuarded s _)
      (deliverEvent_keepsGuarded hfault)
  · obtain ⟨_, u, hfetch, hbody⟩ := bind_ok.1 hran
    have hlevel : u.priv0 = s.priv0 :=
      touchFetch_keeps (R := fun s t : State => t.priv0 = s.priv0) ⟨fun _ => rfl, fun _ _ _ h k => k.trans h⟩
        (fun _ _ _ _ _ => rfl) s _ u hfetch
    exact keepsGuarded_preserved.trans s u t
      (touchFetch_keeps keepsGuarded_preserved keepsGuarded_write.mark s _ u hfetch)
      (hk u _ t hbody (hlevel.trans hpriv))

theorem instrStep_keepsGuarded (hpriv : s.priv0 = false) (h : instrStep s = .next t) : KeepsGuarded s t := by
  unfold instrStep at h
  split at h
  · next c i _ _ =>
    have hu := exec_keepsGuarded (s := { s with ctx := c }) hpriv h
    exact hu
  · cases h
  · unfold settle at h
    split at h
    · next hstop => cases hstop
    · next a _ => cases a <;> cases h
    · exact keepsGuarded_preserved.trans s _ t (withCr2_keepsGuarded s _)
        (deliverEvent_keepsGuarded h)

theorem runStep_keepsGuarded (hpriv : s.priv0 = false) (h : runStep s = .next t) : KeepsGuarded s t := by
  unfold runStep at h
  cases hx : instrStep { s with tfAtStart := s.flag .tf } with
  | next u =>
    have hu : KeepsGuarded s u := instrStep_keepsGuarded (s := { s with tfAtStart := s.flag .tf }) hpriv hx
    rw [hx, trapStep] at h
    split at h
    · exact keepsGuarded_preserved.trans s u t hu (deliverEvent_keepsGuarded h)
    · cases h; exact hu
  | fault f => rw [hx] at h; cases h
  | refused r => rw [hx] at h; cases h

/-- With no callback slot the running core runs an instruction (60_exceptions R526). -/
theorem executeStep_of_noHandlers (hn : s.noHandlers = true) : executeStep s = runStep s := by
  simp only [State.noHandlers, Bool.and_eq_true, List.isEmpty_iff] at hn
  obtain ⟨-, hslots⟩ := hn
  unfold executeStep
  split
  · rw [if_neg (by simp [hslots])]
  · rfl

theorem takeInterrupt_keepsGuarded {vec : Byte} {rest : List Byte} (h : takeInterrupt vec rest s = .next t) :
    KeepsGuarded s t := by
  intro hn
  have hemu : s.params.emulatedVectors.contains vec = false := by
    simp only [State.noHandlers, Bool.and_eq_true, List.isEmpty_iff] at hn
    obtain ⟨⟨hemu, -⟩, -⟩ := hn
    rw [hemu, List.contains_nil]
  simp only [takeInterrupt, hemu, Bool.false_eq_true, if_false] at h
  have ht := deliverEvent_keepsGuarded h
  exact ht hn

theorem closeStep_guarded {x : Step} (h : closeStep x = .next t) : ∃ u, x = .next u ∧ t.guarded = u.guarded := by
  rcases x with u | ⟨_ | _⟩ | ⟨_ | _ | _⟩ <;> cases h
  exact ⟨u, rfl, rfl⟩

theorem step_guarded (hpriv : s.priv0 = false) (hn : s.noHandlers = true) (h : step s = .next t) :
    t.guarded = s.guarded := by
  have close {x : Step} (hx : ∀ u, x = .next u → KeepsGuarded s u) (h : closeStep x = .next t) :
      t.guarded = s.guarded := by
    obtain ⟨u, hu, ht⟩ := closeStep_guarded h
    exact ht.trans (hx u hu hn)
  cases hf : s.fatal with
  | some r => rw [step_of_latched hf] at h; cases h
  | none =>
    by_cases hi : s.flag .intf = false ∨ s.pendingIrq = []
    · rw [step_of_noInterrupt hf hi] at h
      split at h
      · cases h; rfl
      · exact close (fun u hu => runStep_keepsGuarded hpriv (executeStep_of_noHandlers hn ▸ hu)) h
    · obtain ⟨hflag, hq⟩ := not_or.1 hi
      obtain ⟨v, rest, hq⟩ := List.exists_cons_of_ne_nil hq
      rw [step_of_interrupt hf (Bool.eq_true_of_not_eq_false hflag) hq] at h
      exact close (fun _ => takeInterrupt_keepsGuarded) h

/-- Settles O34: outside level 0 an instruction's body stops at its privilege check or keeps the guarded part of the state, and
so does every delivery. -/
theorem userStepsKeepSystemState : Obligations.UserStepsKeepSystemState := by
  unfold Obligations.UserStepsKeepSystemState
  intro s t hpe hlevel hn h
  have hpriv : s.priv0 = false := by rw [State.priv0, hpe]; exact beq_false_of_ne hlevel
  have hguarded := step_guarded hpriv hn h
  simp only [State.guarded, State.tables, Prod.mk.injEq] at hguarded
  obtain ⟨⟨hgdtr, hidtr, hldtr, htr, hdr, hcr0, hcr3, hparams⟩, hiopl⟩ := hguarded
  exact ⟨hgdtr, hidtr, hldtr, htr, hcr0, hcr3, hdr, hiopl, hparams⟩

end Sys2Proof.Machine
end

section
/-! PROOF. What the system instructions leave alone (44_protected_mode R361 to R392): an instruction that writes a system
register writes that one once, with no change of a register or of memory before it; the others store one value. -/

namespace Sys2Proof.Machine

variable {s t u : State} {rm : RM}

/-! ### One system register -/

/-- A system register, by how it is read and written: the writes of it touch nothing else of the state. -/
structure SystemRegister {α : Type} (get : State → α) (put : α → State → State) : Prop where
  get_eq : ∀ {s t}, SameSystem s t → get t = get s
  put_get : ∀ s, put (get s) s = s := by exact fun _ => rfl
  put_put : ∀ v w s, put v (put w s) = put v s := by exact fun _ _ _ => rfl
  put_eip : ∀ v s e, put v { s with eip := e } = { put v s with eip := e } := by exact fun _ _ _ => rfl
  put_clobbered : ∀ v s, put v (State.clobbered s) = (put v s).clobbered := by exact fun _ _ => rfl
  plain : ∀ v s, (put v s).regs = s.regs ∧ (put v s).segs = s.segs ∧ (put v s).eflags = s.eflags ∧ (put v s).mem = s.mem ∧
    (put v s).events = s.events := by exact fun _ _ => ⟨rfl, rfl, rfl, rfl, rfl⟩

theorem gdtr_register : SystemRegister State.gdtr fun v t => { t with gdtr := v } where
  get_eq := fun h => by simp only [SameSystem] at h; simp only [h]

theorem idtr_register : SystemRegister State.idtr fun v t => { t with idtr := v } where
  get_eq := fun h => by simp only [SameSystem] at h; simp only [h]

theorem ldtr_register : SystemRegister State.ldtr fun v t => { t with ldtr := v } where
  get_eq := fun h => by simp only [SameSystem] at h; simp only [h]

theorem tr_register : SystemRegister State.tr fun v t => { t with tr := v } where
  get_eq := fun h => by simp only [SameSystem] at h; simp only [h]

theorem activity_register : SystemRegister State.activity fun v t => { t with activity := v } where
  get_eq := fun h => by simp only [SameSystem] at h; simp only [h]

theorem creg_register (k : CReg) : SystemRegister (·.creg k) fun v t => t.setCreg k v := by
  cases k <;> exact { get_eq := fun h => by simp only [SameSystem] at h; simp only [State.creg, h] }

theorem dr_register (d : DReg) : SystemRegister (·.dr.get d) fun v t => { t with dr := t.dr.set d v } := by
  cases d <;> exact { get_eq := fun h => by simp only [SameSystem] at h; simp only [h] }

/-- But for one system register, the flags of a mask, EIP and the draws, only memory changes, where the state before stores. -/
def KeepsBut {α : Type} (get : State → α) (put : α → State → State) (mask : Word) (stores : State → List Store)
    (s t : State) : Prop :=
  (⟨[], [], mask, stores s⟩ : Frame).keeps s (put (get s) t)

theorem Changes.anyMask {regs : List Reg} (h : Changes regs 0 s t) (mask : Word) : Changes regs mask s t := by
  have hall : ~~~(0 : Word) = BitVec.allOnes 32 := rfl
  have hflags := h.flags
  rw [hall, BitVec.and_allOnes, BitVec.and_allOnes] at hflags
  exact { h with flags := by rw [hflags] }

theorem stable_nil : Stable fun _ => [] := fun _ _ _ _ _ h => h

section
variable {α β : Type} {get : State → α} {put : α → State → State} (hreg : SystemRegister get put) {mask : Word}
  {stores : State → List Store}
include hreg

/-- What is left alone with the register put back is left alone, the register apart. -/
theorem KeepsBut.holds (h : KeepsBut get put mask stores s t) :
    (⟨[], [], mask, stores s⟩ : Frame).holds s t ∧ SameSystem s (put (get s) t) ∧ t.events = s.events := by
  obtain ⟨hregs, hsegs, hflags, hmem, hevents⟩ := hreg.plain (get s) t
  obtain ⟨hholds, hsystem, hsame⟩ := h
  simp only [Frame.holds, SameRegs, SameSegs, SameMemory, hregs, hsegs, hflags, hmem] at hholds
  exact ⟨hholds, hsystem, hevents ▸ hsame⟩

/-- Flags, EIP and draws may change first, where that does not move what is stored. -/
theorem KeepsBut.after (h : Changes [] 0 s u) (k : KeepsBut get put mask stores u t)
    (hstores : s.plainWalks = true → ∀ a, Untouched (stores s) a → Untouched (stores u) a) :
    KeepsBut get put mask stores s t := by
  rw [KeepsBut, hreg.get_eq h.system] at k
  exact Frame.keeps_trans ((h.anyMask mask).keeps (stores s)) k fun hw a ha => ⟨ha, hstores hw a ha⟩

theorem Keeps.changesThenBut (hs : Stable stores) {x : Exec β} {f : β → Exec Unit} (hx : Keeps (Changes [] 0) x)
    (hf : ∀ b, Keeps (KeepsBut get put mask stores) (f b)) : Keeps (KeepsBut get put mask stores) (x >>= f) := by
  intro s a t h
  obtain ⟨b, u, h1, h2⟩ := bind_ok.1 h
  have hsu := hx s b u h1
  exact KeepsBut.after hreg hsu (hf b u a t h2) fun hw a => hs s u a hsu hw

/-- The write of the register. -/
theorem keepsBut_put (v : α) (s : State) : KeepsBut get put mask stores s (put v s) := by
  rw [KeepsBut, hreg.put_put, hreg.put_get]
  exact ((changes_preserved [] mask).refl s).keeps _

/-- The write of the register, and then free status flags (44_protected_mode R370). -/
theorem keepsBut_put_clobbered (v : State → α) :
    Keeps (KeepsBut get put statusMask stores) (modify (fun s => put (v s) s) >>= fun _ => clobberFlags) := by
  intro s a t h
  have ht : t = (put (v s) s).clobbered := by cases h; rfl
  rw [KeepsBut, ht, hreg.put_clobbered, hreg.put_put, hreg.put_get]
  exact (clobberFlags_keeps (changes_preserved [] statusMask) changes_status changes_draw s () _ rfl).keeps _

/-- An instruction takes an exception, or its body ran to the end; its own fetch stores nothing (20_memory R134). -/
theorem framedSystem_of_keepsBut {i : Instr} {body : Exec Unit} (hi : exec i s = seqInstr body s)
    (hk : Keeps (KeepsBut get put mask stores) body) : FramedSystem i s ⟨[], [], mask, stores s⟩ (put (get s)) := by
  refine fun t ht => (runInstr_ran (hi ▸ ht)).imp_right fun hran => ?_
  obtain ⟨_, s', hfetch, hran⟩ := bind_ok.1 hran
  obtain ⟨_, u, hbody, hadvance⟩ := bind_ok.1 hran
  cases hadvance
  have hs : Changes [] 0 s s' := touchFetch_keeps (changes_preserved _ _) changes_mark _ _ _ hfetch
  have hsu : KeepsBut get put mask stores s u := by
    refine KeepsBut.after hreg hs (hk s' () u hbody) fun hw a ha => ?_
    rw [touchFetch_run hw] at hfetch
    cases hfetch
    exact ha
  refine KeepsBut.holds hreg ?_
  rw [KeepsBut, hreg.put_eip]
  exact hsu

end

/-! ### Values that are stored -/

theorem sixthByte_keeps (osz : Size) (t : TableReg) : Keeps (Changes [] 0) (sixthByte osz t) :=
  .ite (.pure (changes_preserved _ _) _) (.bind (changes_preserved _ _) (draw_keeps changes_draw) fun _ =>
    .pure (changes_preserved _ _) _)

theorem stable_segStore (g : SReg) (off : Word) (n : Nat) : Stable fun s => [s.segStore g off n] := by
  intro s u a h hw ha
  rw [Untouched, List.forall_mem_singleton] at ha ⊢
  rw [(h.agree hw).segStore_covers]
  exact ha

theorem storeTable_storesAt (osz : Size) (m : MemOp) (v : TableReg) :
    Keeps (StoresAt [] [] fun s => [s.segStore (memLoc s m).1 (memLoc s m).2 6]) (storeTable osz m v) := by
  refine .getBind fun s b t h => ?_
  exact Keeps.changesThen (stable_segStore (memLoc s m).1 (memLoc s m).2 6) (sixthByte_keeps osz v)
    (fun _ => segWrite_storesAt _ _ 6 _) s b t h

theorem storeHalf_storesAt {regs : List Reg} (hrm : ∀ r, rm = .reg r → r ∈ regs) (osz : Size) (v : Half) :
    Keeps (StoresAt regs [] fun s => s.locStores .b16 (locate s rm)) (storeHalf osz rm v) := by
  refine .getBind fun s b t h => ?_
  cases rm with
  | mem m => exact segWrite_storesAt _ _ 2 _ s b t h
  | reg r =>
    have hr : OfReg (Changes regs 0) r := changes_reg (hrm r rfl)
    have hk : Keeps (Changes regs 0) (storeHalf osz (.reg r) v) :=
      .getBind fun s b t => Keeps.ite (.bind (changes_preserved _ _) (draw_keeps changes_draw) fun _ =>
        writeReg_keeps (w := .b32) hr _) (writeReg_keeps (w := .b16) hr _) s b t
    exact (hk s b t h).storesAt fun _ => []

theorem storeProtected_storesAt {regs : List Reg} (hrm : ∀ r, rm = .reg r → r ∈ regs) (osz : Size) (v : Half) :
    Keeps (StoresAt regs [] fun s => s.locStores .b16 (locate s rm)) (storeProtected osz rm v) := by
  intro s b t h
  obtain ⟨_, u, hmode, hstore⟩ := bind_ok.1 h
  obtain rfl := protectedOnly_ok hmode
  exact storeHalf_storesAt hrm osz v u b t hstore

/-- A register operand of operand size, 16 or 32 bits, is the register itself and not the one that holds a byte view. -/
theorem locate_reg_mem_regs (s : State) {r : Reg} (h : rm = .reg r) : r ∈ (locate s rm).regs s.ctx.osz := by
  subst h
  simp [locate, Loc.regs, osz_ne_b8]

/-! ### The registers that are loaded from an operand -/

/-- An operand is read; where page walks write nothing, nothing changes and the value is that of the operand. -/
theorem readRM_ok {w : Size} {v : BitVec w.bits} (h : readRM w rm s = .ok (v, t)) :
    Changes [] 0 s t ∧ (s.plainWalks = true → t = s ∧ v = s.locValue w (locate s rm)) := by
  refine ⟨readRM_keeps (changes_preserved _ _) changes_mark w rm s v t h, fun hw => ?_⟩
  cases rm with
  | reg r => cases h; exact ⟨rfl, rfl⟩
  | mem m =>
    replace h : (segRead (memLoc s m).1 (memLoc s m).2 w.bytes >>= fun k => pure (BitVec.ofNat w.bits k)) s =
      .ok (v, t) := h
    obtain ⟨k, u, hread, hpure⟩ := bind_ok.1 h
    obtain ⟨rfl, rfl⟩ := segRead_ok hw hread
    cases hpure
    exact ⟨rfl, rfl⟩

section
variable {α : Type} {get : State → α} {put : α → State → State} (hreg : SystemRegister get put)
include hreg

/-- What comes after the read of an operand stores where the operand's value says. -/
theorem readRM_thenBut {w : Size} {stores : BitVec w.bits → State → List Store} {f : BitVec w.bits → Exec Unit}
    (hf : ∀ v, Keeps (KeepsBut get put 0 (stores v)) (f v)) :
    Keeps (KeepsBut get put 0 fun s => stores (s.locValue w (locate s rm)) s) (readRM w rm >>= f) := by
  intro s a t h
  obtain ⟨v, u, hread, hrest⟩ := bind_ok.1 h
  obtain ⟨hsu, hplain⟩ := readRM_ok hread
  have hut := hf v u a t hrest
  rw [KeepsBut, hreg.get_eq hsu.system] at hut
  refine Frame.keeps_trans (hsu.keeps _) hut fun hw a ha => ⟨ha, ?_⟩
  obtain ⟨rfl, rfl⟩ := hplain hw
  exact ha

end

theorem privCheck_changes : Keeps (Changes [] 0) privCheck := privCheck_keeps (changes_preserved _ _)

theorem protectedOnly_changes : Keeps (Changes [] 0) protectedOnly := protectedOnly_keeps (changes_preserved _ _)

theorem readPseudo_changes (osz : Size) (m : MemOp) : Keeps (Changes [] 0) (readPseudo osz m) :=
  readPseudo_keeps (changes_preserved _ _) changes_mark osz m

theorem readDescriptor_changes (sel : Half) : Keeps (Changes [] 0) (readDescriptor sel 13 false) :=
  readDescriptor_keeps (changes_preserved _ _) changes_mark sel 13 false

theorem check_changes (b : Bool) (e : Stop) : Keeps (Changes [] 0) (check b e) := .check (changes_preserved _ _) b e

theorem loadGdt_keepsBut (osz : Size) (m : MemOp) :
    Keeps (KeepsBut State.gdtr (fun v t => { t with gdtr := v }) 0 fun _ => []) (loadGdt osz m) :=
  .changesThenBut gdtr_register stable_nil privCheck_changes fun _ =>
    .changesThenBut gdtr_register stable_nil (readPseudo_changes osz m) fun v =>
      .modify fun s => keepsBut_put gdtr_register v s

theorem loadIdt_keepsBut (osz : Size) (m : MemOp) :
    Keeps (KeepsBut State.idtr (fun v t => { t with idtr := v }) 0 fun _ => []) (loadIdt osz m) :=
  .changesThenBut idtr_register stable_nil privCheck_changes fun _ =>
    .changesThenBut idtr_register stable_nil (readPseudo_changes osz m) fun v =>
      .modify fun s => keepsBut_put idtr_register v s

theorem loadLdt_keepsBut (rm : RM) :
    Keeps (KeepsBut State.ldtr (fun v t => { t with ldtr := v }) 0 fun _ => []) (loadLdt rm) := by
  have put := fun v => Keeps.modify (keepsBut_put (mask := 0) (stores := fun _ => []) ldtr_register v)
  have next {β : Type} {x : Exec β} {f : β → Exec Unit} (hx : Keeps (Changes [] 0) x) hf :=
    Keeps.changesThenBut (mask := 0) ldtr_register stable_nil (f := f) hx hf
  exact next protectedOnly_changes fun _ => next privCheck_changes fun _ =>
    next (readRM_keeps (changes_preserved _ _) changes_mark .b16 rm) fun sel => .ite (put _)
      (next (check_changes _ _) fun _ => next (readDescriptor_changes sel) fun _ => next (check_changes _ _) fun _ =>
        next (check_changes _ _) fun _ => put _)

/-- TR does not matter for where a store's bytes are (20_memory R130). -/
theorem covers_tr (s : State) (v : TaskReg) (user : Bool) (lin : Word) (n a : Nat) :
    Store.covers ⟨{ s with tr := v }, user, lin, n⟩ a = Store.covers ⟨s, user, lin, n⟩ a := by
  simp only [Store.covers, physAll_agree (s := s) (t := { s with tr := v }) rfl rfl rfl rfl]

/-- The mark of a descriptor is not addressed by TR (20_memory R105). -/
theorem markStores_untouched_tr (v : TaskReg) {sel : Half} {a : Nat} (ha : Untouched (s.markStores sel) a) :
    Untouched (State.markStores { s with tr := v } sel) a := by
  rw [State.markStores] at ha ⊢
  split
  · next hm =>
    rw [if_pos hm, Untouched, List.forall_mem_singleton] at ha
    rw [Untouched, List.forall_mem_singleton, covers_tr]
    exact ha
  · exact fun _ hw => (List.not_mem_nil hw).elim

/-- TR is written, and then its descriptor is marked (44_protected_mode R366). -/
theorem trThenMark_keepsBut (v : TaskReg) (sel : Half) (d : Desc) (mask : Byte) :
    Keeps (KeepsBut State.tr (fun v t => { t with tr := v }) 0 fun s => s.markStores sel)
      ((modify fun s => { s with tr := v }) >>= fun _ => markDescriptor sel d mask) := by
  intro s b t h
  have hmark := markDescriptor_storesAt (regs := []) (segs := []) sel d mask { s with tr := v } b t h
  obtain ⟨⟨hregs, hsegs, hflags, hmem⟩, hsystem, hevents⟩ := hmark
  have hback : SameSystem s { t with tr := s.tr } := by
    simp only [SameSystem] at hsystem ⊢
    simp [hsystem]
  exact ⟨⟨hregs, hsegs, hflags, fun hw a ha => hmem hw a (markStores_untouched_tr v ha)⟩, hback, hevents⟩

theorem loadTaskSel_keepsBut (sel : Half) :
    Keeps (KeepsBut State.tr (fun v t => { t with tr := v }) 0 fun s => s.markStores sel) (loadTaskSel sel) := by
  have next {β : Type} {x : Exec β} {f : β → Exec Unit} (hx : Keeps (Changes [] 0) x) hf :=
    Keeps.changesThenBut (mask := 0) tr_register (stable_markStores sel) (f := f) hx hf
  exact next (check_changes _ _) fun _ => next (check_changes _ _) fun _ => next (readDescriptor_changes sel) fun d =>
    next (check_changes _ _) fun _ => next (check_changes _ _) fun _ => trThenMark_keepsBut _ sel d 2

theorem loadTask_keepsBut (rm : RM) :
    Keeps (KeepsBut State.tr (fun v t => { t with tr := v }) 0 fun s => s.markStores (s.locValue .b16 (locate s rm)))
      (loadTask rm) := by
  intro s a t h
  obtain ⟨_, u, hmode, hrest⟩ := bind_ok.1 h
  obtain ⟨_, x, hpriv, hload⟩ := bind_ok.1 hrest
  obtain rfl := protectedOnly_ok hmode
  obtain rfl := privCheck_ok hpriv
  exact readRM_thenBut (w := .b16) (stores := fun sel s => s.markStores sel) tr_register loadTaskSel_keepsBut x a t hload

theorem loadMsw_keepsBut (rm : RM) :
    Keeps (KeepsBut (·.creg .cr0) (fun v t => t.setCreg .cr0 v) 0 fun _ => []) (loadMsw rm) :=
  .changesThenBut (creg_register .cr0) stable_nil privCheck_changes fun _ =>
    .changesThenBut (creg_register .cr0) stable_nil (readRM_keeps (changes_preserved _ _) changes_mark .b16 rm) fun v =>
      .modify fun s => keepsBut_put (creg_register .cr0) (lmswValue s.cr0 v) s

theorem clearTs_keepsBut : Keeps (KeepsBut (·.creg .cr0) (fun v t => t.setCreg .cr0 v) 0 fun _ => []) clearTs :=
  .changesThenBut (creg_register .cr0) stable_nil privCheck_changes fun _ =>
    .modify fun s => keepsBut_put (creg_register .cr0) (s.cr0 &&& ~~~0x8) s

theorem haltCore_keepsBut :
    Keeps (KeepsBut State.activity (fun v t => { t with activity := v }) 0 fun _ => []) haltCore :=
  .changesThenBut activity_register stable_nil privCheck_changes fun _ =>
    .modify fun s => keepsBut_put activity_register .halted s

theorem moveToControl_keepsBut (k : CReg) (r : Reg) :
    Keeps (KeepsBut (·.creg k) (fun v t => t.setCreg k v) statusMask fun _ => []) (moveToControl k r) :=
  .changesThenBut (creg_register k) stable_nil privCheck_changes fun _ =>
    keepsBut_put_clobbered (creg_register k) fun s => s.reg r

theorem moveToDebug_keepsBut (d : DReg) (r : Reg) :
    Keeps (KeepsBut (·.dr.get d) (fun v t => { t with dr := t.dr.set d v }) statusMask fun _ => []) (moveToDebug d r) :=
  .changesThenBut (dr_register d) stable_nil privCheck_changes fun _ =>
    keepsBut_put_clobbered (dr_register d) fun s => s.reg r

/-- A general register is written, and then the status flags are free (44_protected_mode R377, R378). -/
theorem setRegClobbered_keeps (r : Reg) (v : State → Word) :
    Keeps (Changes [r] statusMask)
      (privCheck >>= fun _ => modify (fun s => s.setReg r (v s)) >>= fun _ => clobberFlags) :=
  have hR := changes_preserved [r] statusMask
  .bind hR (privCheck_keeps hR) fun _ =>
    .bind hR (.modify fun s => changes_reg (List.mem_singleton.2 rfl) s _) fun _ =>
      clobberFlags_keeps hR changes_status changes_draw

theorem setInterruptFlag_changes (v : Bool) : Keeps (Changes [] 0x200) (setInterruptFlag v) :=
  have hR := changes_preserved [] 0x200
  .bind hR (.get hR) fun _ => .bind hR (.check hR _ _) fun _ => modifyFlags_changes (setFlag_within (by decide) v)

/-- Settles O58: each body writes its own system register once, stores one value, or writes one general register or IF. -/
theorem systemFrames : Obligations.SystemFrames := by
  unfold Obligations.SystemFrames
  intro s m rm md r k q g a hloc
  obtain ⟨rfl, rfl⟩ := Prod.mk.inj hloc
  have hrm := fun r => locate_reg_mem_regs (rm := rm) s (r := r)
  simp only [List.forall_mem_cons, List.not_mem_nil, false_implies, implies_true, and_true]
  exact ⟨framedSystem_of_keepsBut gdtr_register rfl (loadGdt_keepsBut s.ctx.osz m),
    framedSystem_of_keepsBut idtr_register rfl (loadIdt_keepsBut s.ctx.osz m),
    ⟨framed_of_storesAt rfl (storeTable_storesAt _ m _), framed_of_storesAt rfl (storeTable_storesAt _ m _)⟩,
    framedSystem_of_keepsBut ldtr_register rfl (loadLdt_keepsBut rm),
    framedSystem_of_keepsBut tr_register rfl (loadTask_keepsBut rm),
    ⟨framed_of_storesAt rfl (storeProtected_storesAt hrm _ _), framed_of_storesAt rfl (storeProtected_storesAt hrm _ _),
      framed_of_storesAt rfl (storeHalf_storesAt hrm _ _), framed_of_storesAt rfl (storeHalf_storesAt hrm _ _)⟩,
    ⟨framedSystem_of_keepsBut (creg_register .cr0) rfl (loadMsw_keepsBut rm),
      framedSystem_of_keepsBut (creg_register .cr0) rfl clearTs_keepsBut⟩,
    framedSystem_of_keepsBut (creg_register k) rfl (moveToControl_keepsBut k r),
    framed_of_keeps rfl (setRegClobbered_keeps r _),
    fun d => ⟨framedSystem_of_keepsBut (dr_register d) rfl (moveToDebug_keepsBut d r),
      framed_of_keeps rfl (setRegClobbered_keeps r _)⟩,
    framedSystem_of_keepsBut activity_register rfl haltCore_keepsBut,
    fun s => framed_of_keeps rfl (setInterruptFlag_changes false),
    fun s => framed_of_keeps rfl (setInterruptFlag_changes true)⟩

end Sys2Proof.Machine
end

section
/-! PROOF. Data movement (45_data_movement R400 to R406) and the accumulator and flag instructions (R407 to R417): each form is
an operation that reads its source and then writes its destination, and with accessible operands runs to one named state. -/

namespace Sys2Proof.Machine

variable {s : State} {w : Size} {r : Reg} {rm : RM} {off : Word}

/-! ### MOV and SETcc (45_data_movement R400 to R402, 41_logic_shift R276) -/

theorem seqInstr_writeRM (h : s.canWrite w (locate s rm) = true) (v : BitVec w.bits) :
    seqInstr (writeRM w rm v) s = .next (s.locStore w (locate s rm) v).advanced := by
  obtain ⟨hw, h⟩ := canWrite_iff h
  exact seqInstr_ok hw (writeRM_run hw v h)

/-- A register is read before the destination is written, and its value is that of the state before. -/
theorem moveToRM_run (h : s.canWrite w (locate s rm) = true) :
    seqInstr (moveToRM w rm r) s = .next (s.locStore w (locate s rm) (s.view w r)).advanced :=
  have ⟨hw, h⟩ := canWrite_iff h
  seqInstr_ok hw (writeRM_run hw (s.view w r) h)

/-- Every load of a register from an r/m operand, by what it makes of the value. -/
theorem readThenWriteReg_run {src : Size} (h : s.canRead src (locate s rm) = true) (f : BitVec src.bits → BitVec w.bits) :
    seqInstr (readRM src rm >>= fun v => writeReg w r (f v)) s =
      .next (s.setView w r (f (s.locValue src (locate s rm)))).advanced := by
  obtain ⟨hw, h⟩ := canRead_iff h
  refine seqInstr_ok hw ?_
  rw [bind_run, readRM_run hw h]
  rfl

theorem moveToReg_run (h : s.canRead w (locate s rm) = true) :
    seqInstr (moveToReg w r rm) s = .next (s.setView w r (s.locValue w (locate s rm))).advanced :=
  readThenWriteReg_run h fun v => v

theorem setOnCond_run (h : s.canWrite .b8 (locate s rm) = true) (cc : Cond) :
    seqInstr (setOnCond cc rm) s =
      .next (s.locStore .b8 (locate s rm) (if condHolds cc s.eflags then 1 else 0)).advanced :=
  have ⟨hw, h⟩ := canWrite_iff h
  seqInstr_ok hw (writeRM_run hw (if condHolds cc s.eflags then 1 else 0) h)

/-- The accumulator is loaded from an offset in a segment. -/
theorem segReadThenAcc_run (hw : s.plainWalks = true) {g : SReg} (h : s.readable g off w.bytes = true) :
    (segRead g off w.bytes >>= fun v => writeReg w .eax (BitVec.ofNat w.bits v)) s =
      .ok ((), s.setView w .eax (s.locValue w (.mem g off))) := by
  rw [bind_run, segRead_run hw h]
  rfl

theorem loadMoffs_run (h : s.canRead w (.mem s.sourceSeg off) = true) :
    seqInstr (loadMoffs w off) s = .next (s.setView w .eax (s.locValue w (.mem s.sourceSeg off))).advanced := by
  obtain ⟨hw, h⟩ := canRead_iff h
  exact seqInstr_ok hw (segReadThenAcc_run hw h)

theorem storeMoffs_run (h : s.canWrite w (.mem s.sourceSeg off) = true) :
    seqInstr (storeMoffs w off) s = .next (s.locStore w (.mem s.sourceSeg off) (s.view w .eax)).advanced := by
  obtain ⟨hw, h⟩ := canWrite_iff h
  exact seqInstr_ok hw (segWrite_run hw _ h)

/-! ### MOVZX and MOVSX (45_data_movement R405, R406) -/

theorem moveZero_run {src : Size} (h : s.canRead src (locate s rm) = true) :
    seqInstr (moveZero src w r rm) s =
      .next (s.setView w r (BitVec.ofNat _ (s.locValue src (locate s rm)).toNat)).advanced := by
  rw [BitVec.ofNat_toNat]
  exact readThenWriteReg_run h fun v => v.setWidth w.bits

theorem moveSign_run {src : Size} (h : s.canRead src (locate s rm) = true) :
    seqInstr (moveSign src w r rm) s =
      .next (s.setView w r (BitVec.ofInt _ (s.locValue src (locate s rm)).toInt)).advanced :=
  readThenWriteReg_run h fun v => v.signExtend w.bits

/-! ### XCHG (45_data_movement R403) -/

/-- Both operands are read before the first of the two writes. -/
theorem exchangeRM_run (h : s.canUpdate w (locate s rm) = true) :
    seqInstr (exchangeRM w rm r) s =
      .next ((s.locStore w (locate s rm) (s.view w r)).setView w r (s.locValue w (locate s rm))).advanced := by
  obtain ⟨hw, hread, hwrite⟩ := canUpdate_iff h
  refine seqInstr_ok hw ?_
  simp only [exchangeRM, bind_run, get_run, readLoc_run hw hread, readReg_run, writeLoc_run hw _ hwrite, writeReg_run]

theorem exchangeAcc_run (hw : s.plainWalks = true) (w : Size) (r : Reg) :
    seqInstr (exchangeAcc w r) s = .next ((s.setView w .eax (s.view w r)).setView w r (s.view w .eax)).advanced :=
  seqInstr_ok hw rfl

/-- The one-byte forms of XCHG are one operation. -/
theorem exec_exchangeAcc {i : Instr} (s : State)
    (hi : (i, r) ∈ [(Instr.xchgEaxEcx, Reg.ecx), (.xchgEaxEdx, .edx), (.xchgEaxEbx, .ebx), (.xchgEaxEsp, .esp),
      (.xchgEaxEbp, .ebp), (.xchgEaxEsi, .esi), (.xchgEaxEdi, .edi)]) :
    exec i s = seqInstr (exchangeAcc s.ctx.osz r) s := by
  simp only [List.mem_cons, Prod.mk.injEq, List.not_mem_nil, or_false] at hi
  obtain ⟨rfl, rfl⟩ | ⟨rfl, rfl⟩ | ⟨rfl, rfl⟩ | ⟨rfl, rfl⟩ | ⟨rfl, rfl⟩ | ⟨rfl, rfl⟩ | ⟨rfl, rfl⟩ := hi <;> rfl

/-- Settles O15: each form is one operation, which reads all its sources before it writes. -/
theorem movesRun : Obligations.MovesRun := by
  unfold Obligations.MovesRun
  refine ⟨fun s rm h => ⟨fun _ => moveToRM_run h, seqInstr_writeRM h, fun cc _ => setOnCond_run h cc⟩,
    fun s rm h => ⟨fun _ => moveToRM_run h, fun _ => seqInstr_writeRM h _⟩,
    fun s r rm h => ⟨moveToReg_run h, moveZero_run h, moveSign_run h⟩,
    fun s r rm h => ⟨moveZero_run h, moveSign_run h⟩, fun s r rm h => moveToReg_run h,
    fun s off h => loadMoffs_run h, fun s off h => loadMoffs_run h, fun s off h => storeMoffs_run h,
    fun s off h => storeMoffs_run h, fun s hw => ?_, fun s rm r h => exchangeRM_run h, fun s rm r h => exchangeRM_run h⟩
  exact ⟨fun _ _ => seqInstr_ok hw rfl, fun _ _ => seqInstr_ok hw rfl, fun _ _ => seqInstr_ok hw rfl,
    fun i r hi => (exec_exchangeAcc s hi).trans (exchangeAcc_run hw _ r)⟩

/-! ### The accumulator (45_data_movement R407 to R411) -/

theorem convertAcc_run (hw : s.plainWalks = true) (w : Size) :
    seqInstr (convertAcc w) s =
      .next (if w = .b32 then s.setView .b32 .eax (BitVec.ofInt 32 (s.view .b16 .eax).toInt)
        else s.setView .b16 .eax (BitVec.ofInt 16 (s.view .b8 .eax).toInt)).advanced := by
  refine seqInstr_ok hw ?_
  simp only [convertAcc, bind_run, get_run]
  split <;> rfl

/-- A word of copies of the sign bit is -1 or 0. -/
theorem signWord_eq {n : Nat} (a : BitVec n) :
    (if a.msb then BitVec.allOnes n else 0) = BitVec.ofInt n (if a.toInt < 0 then -1 else 0) := by
  simp only [BitVec.msb_eq_toInt, decide_eq_true_eq]
  split
  · rw [BitVec.ofInt_neg, BitVec.ofInt_ofNat, BitVec.neg_one_eq_allOnes]
  · exact (BitVec.ofInt_ofNat n 0).symm

theorem extendAcc_run (hw : s.plainWalks = true) (w : Size) :
    seqInstr (extendAcc w) s =
      .next (s.setView w .edx (BitVec.ofInt _ (if (s.view w .eax).toInt < 0 then -1 else 0))).advanced := by
  rw [← signWord_eq]
  exact seqInstr_ok hw rfl

theorem xlatOffset_eq (s : State) : xlatOffset s =
    BitVec.ofNat 32 (((s.view s.ctx.asz .ebx).toNat + (s.view .b8 .eax).toNat) % 2 ^ s.ctx.asz.bits) := by
  refine BitVec.eq_of_toNat_eq ?_
  simp only [xlatOffset, BitVec.toNat_setWidth, BitVec.toNat_add, BitVec.toNat_ofNat, Nat.add_mod_mod]

theorem translateAcc_run (h : s.canRead .b8 (.mem s.sourceSeg (xlatOffset s)) = true) :
    seqInstr translateAcc s = .next (s.setView .b8 .eax (s.locValue .b8 (.mem s.sourceSeg (xlatOffset s)))).advanced := by
  obtain ⟨hw, h⟩ := canRead_iff h
  exact seqInstr_ok hw (segReadThenAcc_run (w := .b8) hw h)

/-- Settles O16: each instruction writes the accumulator or the flags once, from what the state before holds. -/
theorem accumulatorRuns : Obligations.AccumulatorRuns := by
  unfold Obligations.AccumulatorRuns
  refine ⟨fun s off hoff h => ?_, fun s hw => ⟨convertAcc_run hw _, extendAcc_run hw _, ?_⟩⟩
  · rw [← xlatOffset_eq] at hoff
    subst hoff
    exact translateAcc_run h
  · exact ⟨seqInstr_ok hw rfl, seqInstr_ok hw rfl, seqInstr_ok hw rfl, seqInstr_ok hw rfl, seqInstr_ok hw rfl,
      seqInstr_ok hw rfl, seqInstr_ok hw rfl, seqInstr_ok hw rfl⟩

end Sys2Proof.Machine
end

section
/-! PROOF. What the moves, the accumulator and flag instructions and the loads of segment registers leave alone
(45_data_movement R400 to R417, 44_protected_mode R380 to R386): a body writes the registers, the flags or the operand of its
frame, and what it stores is placed by the state before. -/

namespace Sys2Proof.Machine

variable {α : Type} {regs : List Reg} {segs : List SReg} {s : State} {w : Size} {r : Reg} {rm : RM} {q : SReg}

/-! ### Stores that are placed by the state before -/

/-- An operand stores where it did, once it is located (30_encoding R177). -/
theorem stable_locStores (w : Size) (l : Loc) : Stable fun s => s.locStores w l := by
  cases l with
  | reg r => exact stable_nil
  | mem g off => exact stable_segStore g off w.bytes

/-- Before a store nothing changes that EA() is computed from. -/
theorem stable_rmStores (w : Size) (rm : RM) : Stable fun s => s.locStores w (locate s rm) := by
  intro s u a h hw ha
  obtain ⟨-, -, hctx, -⟩ := h.fields
  have hplace := stable_locStores w (locate s rm) s u a h hw ha
  rwa [← locate_congr h.regs hctx] at hplace

/-- Registers of the frame may be written after the store. -/
theorem Keeps.storesAtThen {stores : State → List Store} {x : Exec α} {f : α → Exec Unit}
    (hx : Keeps (StoresAt regs segs stores) x) (hf : ∀ a, Keeps (Changes regs 0) (f a)) :
    Keeps (StoresAt regs segs stores) (x >>= f) := by
  intro s b t h
  obtain ⟨a, u, h1, h2⟩ := bind_ok.1 h
  exact StoresAt.thenChanges (hx s a u h1) (hf a u b t h2)

/-- What comes after a read stores where the value read says; value is what is read where page walks write nothing. -/
theorem readThen_storesAt {x : Exec α} {value : State → α} {stores : α → State → List Store} {f : α → Exec Unit}
    (hx : ∀ s v t, x s = .ok (v, t) → Changes [] 0 s t ∧ (s.plainWalks = true → t = s ∧ v = value s))
    (hf : ∀ v, Keeps (StoresAt regs segs (stores v)) (f v)) :
    Keeps (StoresAt regs segs fun s => stores (value s) s) (x >>= f) := by
  intro s b t h
  obtain ⟨v, u, hread, hrest⟩ := bind_ok.1 h
  obtain ⟨hsu, hplain⟩ := hx s v u hread
  refine Frame.keeps_trans ((hsu.mono (List.nil_subset _)).storesAt fun s => stores (value s) s) (hf v u b t hrest)
    fun hw a ha => ⟨ha, ?_⟩
  obtain ⟨rfl, rfl⟩ := hplain hw
  exact ha

/-! ### MOV and XCHG (45_data_movement R400 to R403) -/

theorem framed_writeRM {i : Instr} {v : BitVec w.bits} (hi : exec i s = seqInstr (writeRM w rm v) s) :
    Framed i s (s.locFrame w (locate s rm) 0) :=
  framed_of_storesLast hi fun _ => .write v

theorem writeLoc_storesAt {l : Loc} (hl : l.regs w ⊆ regs) (v : BitVec w.bits) :
    Keeps (StoresAt regs segs fun s => s.locStores w l) (writeLoc w l v) :=
  fun s _ _ h => Frame.keeps_mono (writeLoc_frame ((changes_preserved [] 0).refl s) h) hl

theorem moveToRM_storesAt (hrm : ∀ s, (locate s rm).regs w ⊆ regs) (r : Reg) :
    Keeps (StoresAt regs segs fun s => s.locStores w (locate s rm)) (moveToRM w rm r) :=
  .changesThen (stable_rmStores w rm) (readReg_keeps (changes_preserved _ _) w r) fun v => writeRM_storesAt hrm v

theorem framed_moveToRM {i : Instr} (hi : exec i s = seqInstr (moveToRM w rm r) s) :
    Framed i s (s.locFrame w (locate s rm) 0) :=
  framed_of_storesAt hi (moveToRM_storesAt (fun t => locate_regs t s w rm ▸ List.Subset.refl _) r)

theorem framed_storeMoffs {i : Instr} {off : Word} (hi : exec i s = seqInstr (storeMoffs w off) s) :
    Framed i s ⟨[], [], 0, [s.segStore s.sourceSeg off w.bytes]⟩ :=
  framed_of_storesAt (stores := fun s => [s.segStore s.sourceSeg off w.bytes]) hi
    (.getBind fun s b t h => segWrite_storesAt (segmentOr s.ctx .ds) off w.bytes _ s b t h)

theorem exchangeRM_storesAt (hrm : ∀ s, (locate s rm).regs w ⊆ regs) (hr : viewHome w r ∈ regs) :
    Keeps (StoresAt regs segs fun s => s.locStores w (locate s rm)) (exchangeRM w rm r) := by
  have hR := changes_preserved [] 0
  refine .getBind fun s b t h => ?_
  have hl := stable_locStores w (locate s rm)
  exact Keeps.changesThen hl (readLoc_keeps hR changes_mark w (locate s rm)) (fun _ =>
    .changesThen hl (readReg_keeps hR w r) fun v => .storesAtThen (writeLoc_storesAt (hrm s) v) fun _ =>
      writeReg_keeps (changes_reg hr) _) s b t h

theorem framed_exchangeRM {i : Instr} (hi : exec i s = seqInstr (exchangeRM w rm r) s) :
    Framed i s ⟨(locate s rm).regs w ++ Loc.regs w (.reg r), [], 0, s.locStores w (locate s rm)⟩ :=
  framed_of_storesAt hi (exchangeRM_storesAt (fun t => locate_regs t s w rm ▸ List.subset_append_left _ _)
    (List.mem_append_right _ (List.mem_singleton.2 rfl)))

/-! ### SAHF (45_data_movement R411) -/

/-- Two images agree outside a mask where their bits outside it agree. -/
theorem and_not_congr {mask a b : Word} (h : ∀ k < 32, mask.getLsbD k = false → a.getLsbD k = b.getLsbD k) :
    a &&& ~~~mask = b &&& ~~~mask := by
  refine BitVec.eq_of_getLsbD_eq fun k hk => ?_
  simp only [BitVec.getLsbD_and, BitVec.getLsbD_not]
  cases hb : mask.getLsbD k with
  | true => simp
  | false => rw [h k hk hb]

theorem getLsbD_sahfFlags (fl : Word) (ah : Byte) {k : Nat} (hk : k < 32) : (sahfFlags fl ah).getLsbD k =
    (decide (k = 1) || if k < 8 then ah.getLsbD k && (0xD5 : Word).getLsbD k else fl.getLsbD k) := by
  have hmasks : ∀ k < 32, (0xFFFFFF00 : Word).getLsbD k = !decide (k < 8) ∧
      (0x00000002 : Word).getLsbD k = decide (k = 1) := by decide
  obtain ⟨hold, hone⟩ := hmasks k hk
  simp only [sahfFlags, BitVec.getLsbD_or, BitVec.getLsbD_and, BitVec.getLsbD_setWidth, hk, hold, hone]
  by_cases hlow : k < 8
  · simp [hlow, Bool.or_comm]
  · simp [hlow, Bool.or_comm, BitVec.getLsbD_of_ge ah k (by omega)]

theorem sahfFlags_within (ah : Byte) : FlagsWithin 0xFF fun fl => sahfFlags fl ah := by
  have hmask : ∀ k < 32, (0xFF : Word).getLsbD k = false → 8 ≤ k := by decide
  refine fun fl => and_not_congr fun k hk hb => ?_
  have hhigh := hmask k hk hb
  rw [getLsbD_sahfFlags fl ah hk, if_neg (by omega), decide_eq_false (by omega), Bool.false_or]

/-- The bits without a function, where EFLAGS reads as 10_state R39 says. -/
theorem State.flagsFixed_bit (h : s.flagsFixed = true) {k : Nat} (hk : k < 32) (hfixed : flagsWmask.getLsbD k = false) :
    s.eflags.getLsbD k = decide (k = 1) := by
  have htwo : ∀ k < 32, (2 : Word).getLsbD k = decide (k = 1) := by decide
  rw [← htwo k hk, ← eq_of_beq h, BitVec.getLsbD_and, BitVec.getLsbD_not, hfixed, decide_eq_true hk, Bool.not_false,
    Bool.and_true, Bool.and_true]

/-- Where the fixed bits have their values, SAHF gives bits 1, 3 and 5 the values they have. -/
theorem sahfFlags_flagsFixed (h : s.flagsFixed = true) (ah : Byte) :
    sahfFlags s.eflags ah &&& ~~~0xD5 = s.eflags &&& ~~~0xD5 := by
  have hmask : ∀ k < 32, (0xD5 : Word).getLsbD k = false → 8 ≤ k ∨ k < 8 ∧ flagsWmask.getLsbD k = false := by decide
  refine and_not_congr fun k hk hb => ?_
  rw [getLsbD_sahfFlags s.eflags ah hk]
  obtain hhigh | ⟨hlow, hfixed⟩ := hmask k hk hb
  · rw [if_neg (by omega), decide_eq_false (by omega), Bool.false_or]
  · rw [if_pos hlow, hb, Bool.and_false, Bool.or_false, s.flagsFixed_bit h hk hfixed]

theorem Changes.eflags {t : State} (h : Changes regs 0 s t) : t.eflags = s.eflags := by
  have hflags := h.flags
  rwa [show ~~~(0 : Word) = BitVec.allOnes 32 from rfl, BitVec.and_allOnes, BitVec.and_allOnes] at hflags

theorem framed_sahf_flagsFixed (h : s.flagsFixed = true) : Framed .sahf s ⟨[], [], 0xD5, []⟩ := by
  refine framed_of_body (mask := 0) rfl fun s' t hs hb => ?_
  cases hb
  have hfixed : s'.flagsFixed = true := by rwa [State.flagsFixed, hs.eflags]
  have hsahf : Changes [] 0xD5 s' { s' with eflags := sahfFlags s'.eflags (s'.view .b8 .esp) } :=
    ⟨fun _ _ => rfl, rfl, sahfFlags_flagsFixed hfixed _, fun _ => rfl, .refl s', rfl⟩
  exact ((changes_preserved _ _).trans _ _ _ (hs.anyMask _) hsahf).keeps []

/-! ### Segment registers (44_protected_mode R380, R382) -/

theorem moveToSeg_storesAt (hq : q ∈ segs) (rm : RM) :
    Keeps (StoresAt regs segs fun s => s.loadStores (s.locValue .b16 (locate s rm))) (moveToSeg q rm) :=
  readThen_storesAt (value := fun s => s.locValue .b16 (locate s rm)) (stores := fun sel s => s.loadStores sel)
    (fun _ _ _ => readRM_ok) (loadSReg_storesAt hq)

/-- A segment read, with what it leaves alone where page walks mark their entries. -/
theorem segRead_changes_ok (g : SReg) (off : Word) (n : Nat) (s : State) (v : Nat) (t : State)
    (h : segRead g off n s = .ok (v, t)) :
    Changes [] 0 s t ∧ (s.plainWalks = true → t = s ∧ v = s.loadFrom g off n) :=
  ⟨segRead_keeps (changes_preserved _ _) changes_mark g off n s v t h, fun hw => segRead_ok hw h⟩

theorem loadFarPointer_storesAt (hq : q ∈ segs) (hr : viewHome w r ∈ regs) (m : MemOp) :
    Keeps (StoresAt regs segs fun s =>
      s.loadStores (farSelector w (s.loadFrom (memLoc s m).1 (memLoc s m).2 (w.bytes + 2)))) (loadFarPointer q w r m) := by
  refine .getBind fun s b t h => ?_
  have hload (p : Nat) : Keeps (StoresAt regs segs fun s => s.loadStores (farSelector w p))
      (loadSReg q (farSelector w p) >>= fun _ => writeReg w r (BitVec.ofNat w.bits p)) :=
    .storesAtThen (loadSReg_storesAt hq _) fun _ => writeReg_keeps (changes_reg hr) _
  have hread := readThen_storesAt (value := fun u => u.loadFrom (memLoc s m).1 (memLoc s m).2 (w.bytes + 2))
    (stores := fun p s => s.loadStores (farSelector w p)) (segRead_changes_ok _ _ _) hload s b t h
  rw [StoresAt] at hread ⊢
  exact hread

/-- The loads of far pointers into one register, each with the segment register it loads (44_protected_mode R382 to R386). -/
theorem exec_loadFarPointer_of_mem {i : Instr} {m : MemOp} (s : State)
    (hi : (i, q) ∈ [(Instr.lesRvMem r m, SReg.es), (.ldsRvMem r m, .ds), (.lssRvMem r m, .ss), (.lfsRvMem r m, .fs),
      (.lgsRvMem r m, .gs)]) : exec i s = seqInstr (loadFarPointer q s.ctx.osz r m) s := by
  simp only [List.mem_cons, Prod.mk.injEq, List.not_mem_nil, or_false] at hi
  obtain ⟨rfl, rfl⟩ | ⟨rfl, rfl⟩ | ⟨rfl, rfl⟩ | ⟨rfl, rfl⟩ | ⟨rfl, rfl⟩ := hi <;> rfl

/-! ### The obligation -/

/-- Settles O55: each body writes one register, one operand, two operands that change places, one flag, or a segment register
with the mark of its descriptor. -/
theorem moveFrames : Obligations.MoveFrames := by
  unfold Obligations.MoveFrames
  rintro s rm r m ib iz off _ _ _ rfl hloc
  obtain ⟨rfl, rfl⟩ := Prod.mk.inj hloc
  have hR := changes_preserved
  have hw := osz_ne_b8 s.ctx
  have hacc : OfReg (Changes [.eax] 0) .eax := changes_reg (List.mem_singleton.2 rfl)
  have hreg (w : Size) : OfReg (Changes (Loc.regs w (.reg r)) 0) (viewHome w r) := changes_reg (List.mem_singleton.2 rfl)
  have hcarry (b : Bool) : FlagsWithin 0x1 (setFlag .cf b) := setFlag_within (by decide) b
  have hdirection (b : Bool) : FlagsWithin 0x400 (setFlag .df b) := setFlag_within (by decide) b
  simp only [List.forall_mem_cons, List.not_mem_nil, false_implies, implies_true, and_true]
  refine ⟨⟨framed_moveToRM rfl, framed_writeRM rfl⟩, ⟨framed_moveToRM rfl, framed_writeRM rfl⟩, ?_, ?_, ?_,
    framed_storeMoffs (w := .b8) rfl, framed_storeMoffs rfl, framed_exchangeRM rfl, framed_exchangeRM rfl,
    fun i q hi => ?_, ?_, ?_, ?_, framed_sahf_flagsFixed, ?_, ?_, fun q => ?_, fun i q hi => ?_⟩
  · exact ⟨framed_of_keeps rfl (moveToReg_keeps (hR _ _) changes_mark (hreg .b8) rm),
      framed_of_keeps rfl (writeReg_keeps (hreg .b8) ib)⟩
  · have hdst := hreg s.ctx.osz
    exact ⟨framed_of_keeps rfl (moveToReg_keeps (hR _ _) changes_mark hdst rm), framed_of_keeps rfl (writeReg_keeps hdst _),
      framed_of_keeps rfl (loadAddress_keeps (hR _ _) hdst m),
      framed_of_keeps rfl (moveZero_keeps (hR _ _) changes_mark hdst .b8 rm),
      framed_of_keeps rfl (moveZero_keeps (hR _ _) changes_mark hdst .b16 rm),
      framed_of_keeps rfl (moveSign_keeps (hR _ _) changes_mark hdst .b8 rm),
      framed_of_keeps rfl (moveSign_keeps (hR _ _) changes_mark hdst .b16 rm)⟩
  · exact ⟨framed_of_keeps rfl (loadMoffs_keeps (hR _ _) changes_mark hacc .b8 off),
      framed_of_keeps rfl (loadMoffs_keeps (hR _ _) changes_mark hacc s.ctx.osz off),
      framed_of_keeps rfl (translateAcc_keeps (hR _ _) changes_mark hacc),
      framed_of_keeps rfl (loadAh_keeps (hR _ _) hacc), framed_of_keeps rfl (convertAcc_keeps (hR _ _) hacc s.ctx.osz)⟩
  · exact framed_of_keeps (exec_exchangeAcc s hi)
      (exchangeAcc_keeps (hR _ _) (changes_reg (by simp)) (changes_reg (by simp [viewHome, hw])))
  · exact framed_of_keeps rfl (extendAcc_keeps (hR _ _) (changes_reg (by simp [viewHome, hw])))
  · exact fun s => framed_of_keeps rfl (.pure (hR _ _) _)
  · exact fun s => framed_of_keeps rfl (storeAh_keeps (hR _ _) fun s ah => changes_flags (sahfFlags_within ah) s)
  · exact ⟨fun s => framed_of_keeps rfl (modifyFlags_changes (hcarry false)),
      fun s => framed_of_keeps rfl (modifyFlags_changes (hcarry true)),
      fun s => framed_of_keeps rfl (modifyFlags_changes fun fl => hcarry (!getFlag .cf fl) fl)⟩
  · exact ⟨fun s => framed_of_keeps rfl (modifyFlags_changes (hdirection false)),
      fun s => framed_of_keeps rfl (modifyFlags_changes (hdirection true))⟩
  · exact framed_of_storesAt (stores := fun s => s.loadStores (s.locValue .b16 (locate s rm))) rfl
      (moveToSeg_storesAt (List.mem_singleton.2 rfl) rm)
  · exact framed_of_storesAt (exec_loadFarPointer_of_mem s hi)
      (loadFarPointer_storesAt (List.mem_singleton.2 rfl) (by simp [viewHome, hw]) m)

end Sys2Proof.Machine
end

section
/-! PROOF. Near transfers (46_control_transfer R430 to R440): a target is checked and EIP set only where the transfer is made,
after what LOOP counts and CALL and RET do with the stack. -/

namespace Sys2Proof.Machine

variable {s : State} {osz : Size} {t : Word}

/-! ### The target (46_control_transfer R430) -/

theorem nearTarget_run (h : s.canNear osz t = true) : nearTarget osz t s = .ok ((), s.jumped osz t) := by
  rw [State.canNear] at h
  simp only [nearTarget, bind_run, get_run, h, check_true, setEip_run]
  rfl

theorem State.canNear_congr {x : State} (h : x.segs = s.segs) (osz : Size) (t : Word) :
    x.canNear osz t = s.canNear osz t := by
  rw [State.canNear, h, State.canNear]

theorem jumpRel_run {rel : Word} (h : s.canNear osz (s.nextEip + rel) = true) :
    jumpRel osz rel s = .ok ((), s.jumped osz (s.nextEip + rel)) := by
  simp only [jumpRel, bind_run, get_run, nearTarget_run h]

theorem branchIf_run {b : Bool} {rel : Word} (h : b = true → s.canNear osz (s.nextEip + rel) = true) :
    branchIf b osz rel s = .ok ((), s.branched b osz (s.nextEip + rel)) := by
  cases b with
  | false => rfl
  | true => exact jumpRel_run (h rfl)

theorem jumpCond_run {cc : Cond} {rel : Word}
    (h : condHolds cc s.eflags = true → s.canNear osz (s.nextEip + rel) = true) :
    jumpCond cc osz rel s = .ok ((), s.branched (condHolds cc s.eflags) osz (s.nextEip + rel)) := by
  simp only [jumpCond, bind_run, get_run, branchIf_run h]

theorem jumpRM_run (hw : s.plainWalks = true) {rm : RM} (hr : s.locReadable osz (locate s rm) = true)
    (h : s.canNear osz ((s.locValue osz (locate s rm)).setWidth 32) = true) :
    jumpRM osz rm s = .ok ((), s.jumped osz ((s.locValue osz (locate s rm)).setWidth 32)) := by
  simp only [jumpRM, bind_run, readRM_run hw hr, nearTarget_run h]

/-! ### The count (46_control_transfer R434 to R437) -/

theorem setWidth_eq_zero (w : Size) (v : BitVec w.bits) : v.setWidth 32 = (0 : Word) ↔ v = 0 := by
  rw [← BitVec.toNat_inj, ← BitVec.toNat_inj]
  cases w <;> simp [Size.bits] <;> omega

theorem setWidth_pred (w : Size) (v : BitVec w.bits) : (v.setWidth 32 - 1).setWidth w.bits = v - 1 := by
  refine BitVec.eq_of_toNat_eq ?_
  cases w <;> simp [Size.bits] <;> omega

theorem State.countDown_eq (s : State) :
    s.countDown = s.setView s.ctx.asz .ecx (s.view s.ctx.asz .ecx - 1) := by
  rw [State.countDown, State.setIndex, indexValue, setWidth_pred]

theorem indexValue_countDown (s : State) : indexValue s.countDown .ecx = 0 ↔ s.view s.ctx.asz .ecx = 1 := by
  rw [indexValue, State.countDown_ctx, State.countDown_eq, State.view_setView, setWidth_eq_zero, sub_eq_zero]

theorem jumpCountZero_run {rel : Word} {b : Bool} (hb : b = decide (s.view s.ctx.asz .ecx = 0))
    (h : b = true → s.canNear osz (s.nextEip + rel) = true) :
    jumpCountZero osz rel s = .ok ((), s.branched b osz (s.nextEip + rel)) := by
  have hzero : (indexValue s .ecx == 0) = b := by
    rw [hb, Bool.eq_iff_iff, beq_iff_eq, decide_eq_true_eq, indexValue, setWidth_eq_zero]
  simp only [jumpCountZero, bind_run, get_run, hzero, branchIf_run h]

/-- The count is lowered before the branch, which does not depend on it but for the condition. -/
theorem loopBranch_run {zf : State → Bool} {rel : Word} {b : Bool} (hzf : zf s.countDown = zf s)
    (hb : b = (decide (s.view s.ctx.asz .ecx ≠ 1) && zf s))
    (h : b = true → s.canNear osz (s.nextEip + rel) = true) :
    loopBranch zf osz rel s = .ok ((), s.countDown.branched b osz (s.nextEip + rel)) := by
  have htaken : (indexValue s.countDown .ecx != 0 && zf s.countDown) = b := by
    rw [hb, hzf, bne, Bool.eq_iff_iff]
    simp only [Bool.and_eq_true, Bool.not_eq_true', beq_eq_false_iff_ne, decide_eq_true_eq, ne_eq, indexValue_countDown]
  have hnext : s.countDown.nextEip = s.nextEip := by simp [State.nextEip]
  have hnear : b = true → s.countDown.canNear osz (s.countDown.nextEip + rel) = true := fun hb => by
    rw [State.canNear_congr (State.countDown_segs s), hnext]
    exact h hb
  simp only [loopBranch, bind_run, modify_run, get_run, htaken, branchIf_run hnear, hnext]

theorem loop_run (hw : s.plainWalks = true) {rel : Byte} {i : Instr} {zf b : Bool}
    (hi : (i = Instr.loopRel8 rel ∧ zf = true) ∨ (i = .loopeRel8 rel ∧ zf = s.flag .zf) ∨
      (i = .loopneRel8 rel ∧ zf = !s.flag .zf))
    (hb : b = (decide (s.view s.ctx.asz .ecx ≠ 1) && zf))
    (h : b = true → s.canNear s.ctx.osz (s.nextEip + rel.signExtend 32) = true) :
    exec i s = .next (s.countDown.branched b s.ctx.osz (s.nextEip + rel.signExtend 32)) := by
  have hflag : s.countDown.flag .zf = s.flag .zf := by rw [State.flag, State.countDown_eflags, State.flag]
  obtain ⟨rfl, rfl⟩ | ⟨rfl, rfl⟩ | ⟨rfl, rfl⟩ := hi
  · exact runInstr_ok hw (loopBranch_run (zf := fun _ => true) rfl hb h)
  · exact runInstr_ok hw (loopBranch_run (zf := fun t => t.flag .zf) hflag hb h)
  · exact runInstr_ok hw (loopBranch_run (zf := fun t => !t.flag .zf) (congrArg (!·) hflag) hb h)

/-- Settles O17: a branch is a check of the target and a write of EIP, and what is not taken checks nothing. -/
theorem jumpsRun : Obligations.JumpsRun := by
  unfold Obligations.JumpsRun
  refine fun s hw => ⟨fun rel h => ?_, fun rel h => ?_, fun rm hr h => ?_, fun cc rel h => ?_, fun cc rel h => ?_,
    fun rel b hb h => ?_, fun rel i zf b hi hb h => ?_⟩
  · exact runInstr_ok hw (jumpRel_run h)
  · exact runInstr_ok hw (jumpRel_run h)
  · exact runInstr_ok hw (jumpRM_run hw hr h)
  · exact runInstr_ok hw (jumpCond_run h)
  · exact runInstr_ok hw (jumpCond_run h)
  · exact runInstr_ok hw (jumpCountZero_run hb h)
  · rw [← State.countDown_eq]
    exact loop_run hw hi hb h

/-! ### CALL and RET near (46_control_transfer R438 to R440) -/

@[simp] theorem State.storeAt_segs (s : State) (user : Bool) (lin : Word) (n v : Nat) :
    (s.storeAt user lin n v).segs = s.segs := by
  unfold State.storeAt; split <;> rfl

@[simp] theorem State.pushed_segs (s : State) (n v : Nat) : (s.pushed n v).segs = s.segs := by
  simp [State.pushed, State.storeTo]

theorem putLow16_self (v : Word) : putLow16 v (v.extractLsb' 0 16) = v := by
  refine BitVec.eq_of_getLsbD_eq fun k hk => ?_
  simp only [putLow16, BitVec.getLsbD_append, BitVec.getLsbD_extractLsb']
  split
  · next hlow => simp [hlow]
  · next hhigh => rw [Nat.add_sub_cancel' (Nat.le_of_not_lt hhigh), decide_eq_true (by omega), Bool.true_and]

theorem State.setStackPointer_self (s : State) : s.setStackPointer s.stackPointer = s := by
  rw [State.setStackPointer, State.stackPointer]
  split
  · rfl
  · have hlow : ((s.regs.esp.extractLsb' 0 16).setWidth 32).extractLsb' 0 16 = s.regs.esp.extractLsb' 0 16 := by
      ext k hk; simp [hk]; omega
    rw [hlow, putLow16_self]
    rfl

/-- With nothing to release the stack pointer keeps its value. -/
theorem State.released_zero (s : State) : s.released 0 = s := by
  have hmoved : s.movedPointer ((0 : Half).setWidth 32) = s.stackPointer := by
    rw [State.movedPointer_eq, State.stackPointer_eq, show (0 : Half).setWidth 32 = 0#32 from rfl, BitVec.add_zero]
  rw [State.released, hmoved, State.setStackPointer_self]

section
variable (hw : s.plainWalks = true)
include hw

theorem callNear_run (hpush : s.canPush osz.bytes = true) (h : s.canNear osz t = true) :
    callNear osz t s = .ok ((), (s.pushed osz.bytes s.nextEip.toNat).jumped osz t) := by
  have hnear : (s.pushed osz.bytes s.nextEip.toNat).canNear osz t = true :=
    (State.canNear_congr (s.pushed_segs _ _) osz t).trans h
  simp only [callNear, bind_run, get_run, push_run hw hpush, nearTarget_run hnear]

theorem callRM_run {rm : RM} (hr : s.locReadable osz (locate s rm) = true) (hpush : s.canPush osz.bytes = true)
    (h : s.canNear osz ((s.locValue osz (locate s rm)).setWidth 32) = true) :
    callRM osz rm s = .ok ((), (s.pushed osz.bytes s.nextEip.toNat).jumped osz
      ((s.locValue osz (locate s rm)).setWidth 32)) := by
  simp only [callRM, bind_run, readRM_run hw hr, callNear_run hw hpush h]

theorem retNear_run (hpop : s.canPop osz.bytes = true)
    (h : s.canNear osz (BitVec.ofNat 32 (s.top osz.bytes)) = true) (iw : Half) :
    retNear osz iw s =
      .ok ((), ((s.popped osz.bytes).released iw).jumped osz (BitVec.ofNat 32 (s.top osz.bytes))) := by
  have hnear : ((s.popped osz.bytes).released iw).canNear osz (BitVec.ofNat 32 (s.top osz.bytes)) = true :=
    (State.canNear_congr (by simp [State.released, State.popped]) osz _).trans h
  simp only [retNear, bind_run, pop_run hw hpop, release, modify_run]
  exact nearTarget_run hnear

end

/-- Settles O18: the return address is pushed before the target is checked, and popped before the operand is released. -/
theorem nearCallsRun : Obligations.NearCallsRun := by
  unfold Obligations.NearCallsRun
  refine fun s hw => ⟨fun rel hpush h => ?_, fun rm hr hpush h => ?_, fun hpop h => ⟨?_, fun iw => ?_⟩⟩
  · exact runInstr_ok hw (callNear_run hw hpush h)
  · exact runInstr_ok hw (callRM_run hw hr hpush h)
  · have hret := retNear_run hw hpop h 0
    rw [State.released_zero] at hret
    exact runInstr_ok hw hret
  · exact runInstr_ok hw (retNear_run hw hpop h iw)

end Sys2Proof.Machine
end

section
/-! PROOF. Far transfers (46_control_transfer R445 to R451): the checks of a target run to its descriptor, and JMP, CALL and
RETF to the states that their rules give, RETF to the same level or to an outer one. -/

namespace Sys2Proof.Machine

variable {s x : State} {osz : Size} {sel : Half} {off : Word} {iw : Half}

/-! ### Far JMP and CALL (46_control_transfer R445 to R447) -/

/-- CS and EIP do not matter for the mark of a descriptor (20_memory R106). -/
theorem markDescriptor_farLoad_run (hw : x.plainWalks = true) (h : x.canMark sel = true) (g : Segment) (t : Word)
    (d : Desc) (mask : Byte) :
    markDescriptor sel d mask { x.setSeg .cs g with eip := t } =
      .ok ((), State.marked { x.setSeg .cs g with eip := t } sel d mask) := by
  have hmark : State.canMark { x.setSeg .cs g with eip := t } sel = x.canMark sel := by
    simp only [State.canMark]
    rw [backed_agree (s := x) rfl rfl rfl rfl]
    rfl
  exact markDescriptor_run (s := { x.setSeg .cs g with eip := t }) hw (hmark.trans h) d mask

theorem checkFarTarget_run (hw : s.plainWalks = true) (hnull : isNull sel = false) (hd : s.hasDesc sel = true)
    (hok : s.codeOk sel off (s.desc sel) = true) : checkFarTarget sel off s = .ok (s.desc sel, s) := by
  simp only [State.codeOk, Bool.and_eq_true] at hok
  obtain ⟨⟨⟨⟨hs, hcode⟩, hlevel⟩, hpresent⟩, hlimit⟩ := hok
  simp only [checkFarTarget, bind_run, get_run, hnull, readDescriptor_desc hw hd, hs, hcode, hlevel, hpresent, hlimit,
    Bool.not_false, Bool.true_or, check_true, pure_run]

/-- A far transfer passes its checks, then does what comes between, then loads CS and EIP (46_control_transfer R445, R447). -/
theorem farTransfer_run (hw : s.plainWalks = true) (h : s.canFar osz sel off = true) {between : Exec Unit}
    (hb : between s = .ok ((), x)) (hx : x.plainWalks = true) (hmark : s.pe = true → x.canMark sel = true) :
    farTransfer osz sel off between s = .ok ((), s.farLoaded x osz sel off) := by
  simp only [farTransfer, bind_run, get_run, State.farLoaded]
  rw [State.canFar] at h
  cases hpe : s.pe with
  | false =>
    rw [hpe, if_neg Bool.false_ne_true] at h
    simp only [Bool.false_eq_true, if_false, bind_run, h, check_true, hb, modify_run]
  | true =>
    rw [hpe, if_pos rfl, Bool.and_eq_true, Bool.and_eq_true, Bool.not_eq_true'] at h
    obtain ⟨⟨hnull, hd⟩, hok⟩ := h
    simp only [if_true, bind_run, checkFarTarget_run hw hnull hd hok, hb, modify_run]
    exact markDescriptor_farLoad_run hx (hmark hpe) _ _ _ 1

theorem State.returnPushed_plainWalks (s : State) (n : Nat) : (s.returnPushed n).plainWalks = s.plainWalks := by
  simp [State.returnPushed, State.imaged_plainWalks]

/-- The return address of a far CALL is pushed after CS and its draw (46_control_transfer R447). -/
theorem pushReturn_eq (osz : Size) (s : State) : pushReturn osz s =
    pushList osz.bytes [s.selValue osz.bytes s.segs.cs.sel, s.nextEip.toNat] (s.imaged osz.bytes) := by
  simp only [pushReturn, bind_run, get_run, selImage_run, pushList, bind_pure_unit]

theorem pushReturn_run (hw : s.plainWalks = true) (h : s.canPushReturn osz.bytes = true) :
    pushReturn osz s = .ok ((), s.returnPushed osz.bytes) := by
  obtain ⟨hcs, hip⟩ := Bool.and_eq_true_iff.1 h
  rw [pushReturn_eq]
  exact pushList_run ((s.imaged_plainWalks _).trans hw) (by simp [State.canPushes, hcs, hip])

theorem callFar_run (hw : s.plainWalks = true) (h : s.canFar osz sel off = true) (hx : x = s.returnPushed osz.bytes)
    (hpush : s.canPushReturn osz.bytes = true) (hmark : s.pe = true → x.canMark sel = true) :
    callFar osz sel off s = .ok ((), s.farLoaded x osz sel off) := by
  subst hx
  exact farTransfer_run hw h (pushReturn_run hw hpush) ((s.returnPushed_plainWalks _).trans hw) hmark

theorem jumpFar_run (hw : s.plainWalks = true) (h : s.canFar osz sel off = true)
    (hmark : s.pe = true → s.canMark sel = true) : jumpFar osz sel off s = .ok ((), s.farLoaded s osz sel off) :=
  farTransfer_run hw h rfl hw hmark

/-- A far pointer in memory: selector and offset (46_control_transfer R446). -/
def State.farPointer (s : State) (osz : Size) (m : MemOp) : Half × Word :=
  (farSelector osz (s.loadFrom (memLoc s m).1 (memLoc s m).2 (osz.bytes + 2)),
    farOffset osz (s.loadFrom (memLoc s m).1 (memLoc s m).2 (osz.bytes + 2)))

theorem readFarPointer_run (hw : s.plainWalks = true) {m : MemOp}
    (hr : s.readable (memLoc s m).1 (memLoc s m).2 (osz.bytes + 2) = true) :
    readFarPointer osz m s = .ok (s.farPointer osz m, s) := by
  simp only [readFarPointer, bind_run, get_run, segRead_run hw hr]
  rfl

/-! ### Far returns (46_control_transfer R448 to R451) -/

theorem State.released_plainWalks (s : State) (iw : Half) : (s.released iw).plainWalks = s.plainWalks :=
  (agree_setStackPointer s _).plainWalks

theorem State.popped_plainWalks (s : State) (n : Nat) : (s.popped n).plainWalks = s.plainWalks :=
  (agree_popped s n).plainWalks

theorem release_run (iw : Half) (s : State) : release iw s = .ok ((), s.released iw) := rfl

theorem realFarReturn_run (hpe : s.pe = false) (h : s.canReturn osz sel off = true) :
    realFarReturn osz sel off iw s = .ok ((), s.returned osz sel off iw) := by
  rw [State.canReturn, hpe, if_neg Bool.false_ne_true] at h
  have hsegs : (s.released iw).segs = s.segs := s.setStackPointer_segs _
  simp only [realFarReturn, bind_run, release_run, get_run, hsegs, h, check_true, modify_run, State.returned, hpe,
    Bool.false_eq_true, if_false]

/-- The checks of a far return in protected mode, up to the choice of the level (46_control_transfer R450). -/
theorem farReturn_checked (hw : s.plainWalks = true) (hnull : isNull sel = false) (hlevel : s.cpl ≤ rpl sel)
    (hd : s.hasDesc sel = true) (hok : State.returnCodeOk sel (truncTarget osz off) (s.desc sel) = true) :
    farReturn osz sel off iw s =
      (if rpl sel = s.cpl then
        modify fun x => { x.setSeg .cs ((s.desc sel).segment sel) with eip := truncTarget osz off }
      else outwardReturn osz ((s.desc sel).segment sel) (truncTarget osz off) (rpl sel) iw) (s.released iw) := by
  simp only [State.returnCodeOk, Bool.and_eq_true (_ && _)] at hok
  obtain ⟨⟨⟨hcode, hdpl⟩, hpresent⟩, hlimit⟩ := hok
  simp only [farReturn, bind_run, get_run, hnull, Bool.not_false, check_true, decide_eq_true hlevel,
    readDescriptor_desc hw hd, hcode, hdpl, hpresent, hlimit, release_run]

theorem farReturn_run (hw : s.plainWalks = true) (hpe : s.pe = true) (h : s.canReturn osz sel off = true) :
    farReturn osz sel off iw s = .ok ((), s.returned osz sel off iw) := by
  simp only [State.canReturn, hpe, if_true, Bool.and_eq_true, Bool.not_eq_true', beq_iff_eq] at h
  obtain ⟨⟨⟨hnull, hlevel⟩, hd⟩, hok⟩ := h
  rw [farReturn_checked hw hnull (by rw [hlevel]; exact BitVec.le_refl _) hd hok, if_pos hlevel, State.returned, hpe]
  rfl

theorem stackSegFor_run (hw : s.plainWalks = true) {lvl : BitVec 2} (h : s.outerStackOk sel lvl = true) (vec : Byte)
    (ext : Bool) : stackSegFor sel lvl vec ext s = .ok ((s.desc sel).segment sel, s) := by
  simp only [State.outerStackOk, Bool.and_eq_true, Bool.not_eq_true'] at h
  obtain ⟨⟨⟨⟨⟨⟨hnull, hd⟩, hrpl⟩, hs⟩, hdata⟩, hdpl⟩, hpresent⟩ := h
  simp only [stackSegFor, bind_run, hnull, Bool.not_false, readDescriptor_desc hw hd, hrpl, hs, hdata, hdpl, hpresent,
    Bool.and_self, check_true, pure_run]

theorem setOuterPointer_run (osz : Size) (v : Nat) (s : State) :
    setOuterPointer osz v s = .ok ((), s.outerPointer osz v) := by
  unfold setOuterPointer State.outerPointer
  split <;> rfl

theorem invalidateDataSegs_run (lvl : BitVec 2) (s : State) : invalidateDataSegs lvl s = .ok ((), s.nulled lvl) := rfl

/-- The outer stack is popped, and then nothing can stop the return (46_control_transfer R450). -/
theorem farReturn_outward_run (hw : s.plainWalks = true) (h : s.canReturnOut osz sel off iw = true) :
    farReturn osz sel off iw s = .ok ((), s.returnedOut osz sel off iw) := by
  simp only [State.canReturnOut, Bool.and_eq_true, Bool.not_eq_true', decide_eq_true_eq] at h
  obtain ⟨⟨⟨⟨⟨⟨⟨-, hnull⟩, hlevel⟩, hd⟩, hok⟩, hsp⟩, hss⟩, hstack⟩ := h
  have hx := (s.released_plainWalks iw).trans hw
  have hy := (State.popped_plainWalks _ osz.bytes).trans hx
  have hz := (State.popped_plainWalks _ osz.bytes).trans hy
  rw [farReturn_checked hw hnull (BitVec.le_of_lt hlevel) hd hok, if_neg (BitVec.ne_of_lt hlevel).symm]
  simp only [outwardReturn, bind_run, pop_run hx hsp, pop_run hy hss, stackSegFor_run hz hstack, modify_run,
    setOuterPointer_run, release_run, invalidateDataSegs_run]
  rfl

theorem State.canReturnOut_level (h : s.canReturnOut osz sel off iw = true) : s.pe = true ∧ s.cpl < rpl sel := by
  simp only [State.canReturnOut, Bool.and_eq_true, decide_eq_true_eq] at h
  obtain ⟨⟨⟨⟨⟨⟨⟨hpe, -⟩, hlevel⟩, -⟩, -⟩, -⟩, -⟩, -⟩ := h
  exact ⟨hpe, hlevel⟩

theorem State.canReturn_level (h : s.canReturn osz sel off = true) (hpe : s.pe = true) : rpl sel = s.cpl := by
  simp only [State.canReturn, hpe, if_true, Bool.and_eq_true, beq_iff_eq] at h
  obtain ⟨⟨⟨-, hlevel⟩, -⟩, -⟩ := h
  exact hlevel

theorem returnTo_run (hw : s.plainWalks = true) (h : s.canFarReturn osz sel off iw = true) :
    returnTo osz sel off iw s = .ok ((), s.farReturned osz sel off iw) := by
  simp only [returnTo, bind_run, get_run]
  obtain hsame | hout := Bool.or_eq_true_iff.1 h
  · have hreturned : s.farReturned osz sel off iw = s.returned osz sel off iw := by
      refine if_neg fun hlevel => ?_
      obtain ⟨hpe, hlt⟩ := Bool.and_eq_true_iff.1 hlevel
      rw [State.canReturn_level hsame hpe, decide_eq_true_eq] at hlt
      exact BitVec.lt_irrefl _ hlt
    rw [hreturned]
    cases hpe : s.pe with
    | false => exact realFarReturn_run hpe hsame
    | true => exact farReturn_run hw hpe hsame
  · obtain ⟨hpe, hlevel⟩ := State.canReturnOut_level hout
    rw [State.farReturned, hpe, decide_eq_true hlevel]
    exact farReturn_outward_run hw hout

theorem retFar_run (hw : s.plainWalks = true) {y : State} (hoff : s.canPop osz.bytes = true)
    (hx : x = s.popped osz.bytes) (hsel : x.canPop osz.bytes = true) (hy : y = x.popped osz.bytes)
    (h : y.canFarReturn osz (BitVec.ofNat 16 (x.top osz.bytes)) (BitVec.ofNat 32 (s.top osz.bytes)) iw = true) :
    retFar osz iw s = .ok ((), y.farReturned osz (BitVec.ofNat 16 (x.top osz.bytes))
      (BitVec.ofNat 32 (s.top osz.bytes)) iw) := by
  subst hy hx
  have hx := (s.popped_plainWalks osz.bytes).trans hw
  simp only [retFar, bind_run, pop_run hw hoff, pop_run hx hsel]
  exact returnTo_run ((State.popped_plainWalks _ _).trans hx) h

/-- Settles O19: after its checks a far JMP or CALL loads CS and EIP, and RETF pops a target that passes the checks of its
level. -/
theorem farTransfersRun : Obligations.FarTransfersRun := by
  unfold Obligations.FarTransfersRun
  refine fun s hw => ⟨fun sel off h => ⟨fun hmark => ?_, fun x hx hpush hmark => ?_⟩,
    fun m g a p sel off hloc hr hp hsel hoff h => ?_, fun x y off sel iw hpop hx hpop' hy hoff hsel => ?_⟩
  · exact runInstr_ok hw (jumpFar_run hw h hmark)
  · exact runInstr_ok hw (callFar_run hw h hx hpush hmark)
  · subst hsel hoff hp
    obtain ⟨rfl, rfl⟩ := Prod.mk.inj hloc
    refine ⟨fun hmark => ?_, fun x hx hpush hmark => ?_⟩
    · refine runInstr_ok (body := jumpFarMem s.ctx.osz m) hw ?_
      simp only [jumpFarMem, bind_run, readFarPointer_run hw hr]
      exact jumpFar_run hw h hmark
    · refine runInstr_ok (body := callFarMem s.ctx.osz m) hw ?_
      simp only [callFarMem, bind_run, readFarPointer_run hw hr]
      exact callFar_run hw h hx hpush hmark
  · subst hsel hoff
    exact ⟨fun h => runInstr_ok hw (retFar_run hw hpop hx hpop' hy h),
      fun h => runInstr_ok hw (retFar_run hw hpop hx hpop' hy h)⟩

end Sys2Proof.Machine
end

section
/-! PROOF. IRET (46_control_transfer R470): its refusals, and the return with the flags that the level before it may write. -/

namespace Sys2Proof.Machine

variable {s x y z : State} {osz : Size}

theorem runInstr_error {body : Exec Unit} {e : Stop} (hw : s.plainWalks = true) (h : body s = .error e) :
    runInstr body s = settle s s.eip (.error e) := by
  simp only [runInstr, bind_run, touchFetch_run hw, h]

/-- A nested task is not returned to (46_control_transfer R470). -/
theorem interruptReturn_nested (hpe : s.pe = true) (hnt : s.flag .nt = true) :
    interruptReturn osz s = .error (refuse .taskReturn) := by
  simp only [interruptReturn, bind_run, get_run, hpe, hnt, Bool.and_self, Bool.not_true, check_false]

/-- The three pops of IRET, before its flags image is looked at (46_control_transfer R470). -/
theorem interruptReturn_popped (hw : s.plainWalks = true) (hnt : s.pe = false ∨ s.flag .nt = false)
    (hoff : s.canPop osz.bytes = true) (hx : x = s.popped osz.bytes) (hsel : x.canPop osz.bytes = true)
    (hy : y = x.popped osz.bytes) (hfl : y.canPop osz.bytes = true) (hz : z = y.popped osz.bytes) :
    interruptReturn osz s =
      (check (!(s.pe && osz == .b32 && s.cpl == 0 && (y.top osz.bytes).testBit 17)) (refuse .virtual8086Return) >>=
        fun _ => returnTo osz (BitVec.ofNat 16 (x.top osz.bytes)) (BitVec.ofNat 32 (s.top osz.bytes)) 0 >>=
        fun _ => modifyFlags fun old =>
          maskedFlags (popMask s.priv0 s.ioPriv) old (BitVec.ofNat 32 (y.top osz.bytes))) z := by
  subst hz hy hx
  have hx := (s.popped_plainWalks osz.bytes).trans hw
  have hy := (State.popped_plainWalks _ osz.bytes).trans hx
  have hnested : (!(s.pe && s.flag .nt)) = true := by
    obtain h | h := hnt <;> simp [h]
  simp only [interruptReturn, bind_run, get_run, hnested, check_true, pop_run hw hoff, pop_run hx hsel, pop_run hy hfl]

theorem virtual8086_iff {fl : Nat} :
    (s.pe && osz == .b32 && s.cpl == 0 && fl.testBit 17) = true ↔
      s.pe = true ∧ osz = .b32 ∧ s.cpl = 0 ∧ (BitVec.ofNat 32 fl).getLsbD 17 = true := by
  rw [BitVec.getLsbD_ofNat]
  simp [and_assoc]

/-- Settles O21: IRET is refused before it pops or after it, or pops, returns as RETF does and loads the flags. -/
theorem interruptReturnRuns : Obligations.InterruptReturnRuns := by
  unfold Obligations.InterruptReturnRuns
  refine fun s hw => ⟨fun hpe hnt => ?_, fun n x y z off sel fl hn hnt hpop hx hpop' hy hpop'' hz hoff hsel hfl =>
    ⟨fun hpe hosz hcpl hvm => ?_, fun hvm h => ?_⟩⟩
  · exact runInstr_error hw (interruptReturn_nested hpe hnt)
  all_goals
    subst hn hoff hsel hfl
    have hpopped := interruptReturn_popped hw hnt hpop hx hpop' hy hpop'' hz
  · rw [virtual8086_iff.2 ⟨hpe, hosz, hcpl, hvm⟩] at hpopped
    exact runInstr_error hw hpopped
  · have hz : z.plainWalks = true := by
      simp only [hz, hy, hx, State.popped_plainWalks, hw]
    rw [Bool.eq_false_iff.2 (mt virtual8086_iff.1 hvm)] at hpopped
    refine runInstr_ok hw (hpopped.trans ?_)
    simp only [Bool.not_false, bind_run, check_true, returnTo_run hz h, modifyFlags_run]
    rfl

end Sys2Proof.Machine
end

section
/-! PROOF. Taking an exception where page walks write nothing (60_exceptions R501 to R505): each operation of a delivery
succeeds exactly where its checks pass, and then gives the state that its rule gives; so does the delivery. -/

namespace Sys2Proof.Machine

variable {s t u : State} {n : Nat} {sel : Half} {lvl : BitVec 2} {vec : Byte} {ext : Bool} {src : Source}
  {err : Option Half} {ret : Word}

/-! ### What pushes and draws leave of each other -/

theorem State.storeAt_drawn (s : State) (user : Bool) (lin : Word) (n v : Nat) :
    s.drawn.storeAt user lin n v = (s.storeAt user lin n v).drawn := by
  have hphys : s.drawn.physAll .write user (addrs lin n) = s.physAll .write user (addrs lin n) :=
    physAll_agree (s := s) (t := s.drawn) rfl rfl rfl rfl _ _ _
  rw [State.storeAt, State.storeAt, hphys]
  split <;> rfl

theorem State.setStackPointer_drawn (s : State) (v : Word) :
    s.drawn.setStackPointer v = (s.setStackPointer v).drawn := by
  rw [State.setStackPointer, State.setStackPointer, apply_ite State.drawn]
  rfl

theorem State.pushed_drawn (s : State) (n v : Nat) : s.drawn.pushed n v = (s.pushed n v).drawn := by
  let p := s.movedPointer (-BitVec.ofNat 32 n)
  have hstore : s.drawn.storeTo .ss p n v = (s.storeTo .ss p n v).drawn := s.storeAt_drawn s.user (s.linear .ss p) n v
  exact (congrArg (·.setStackPointer p) hstore).trans (State.setStackPointer_drawn _ p)

theorem State.pushed_imaged (s : State) (n m v : Nat) : (s.imaged m).pushed n v = (s.pushed n v).imaged m := by
  unfold State.imaged
  split
  · exact s.pushed_drawn n v
  · rfl

theorem State.selValue_congr {s t : State} (h : t.draws = s.draws) (n : Nat) (sel : Half) :
    t.selValue n sel = s.selValue n sel := by
  rw [State.selValue, State.free, h, State.selValue, State.free]

@[simp] theorem State.pushed_eflags (s : State) (n v : Nat) : (s.pushed n v).eflags = s.eflags := by
  simp only [State.pushed, State.storeTo, State.storeAt, State.setStackPointer_eflags]
  split <;> rfl

@[simp] theorem State.pushed_draws (s : State) (n v : Nat) : (s.pushed n v).draws = s.draws := by
  simp only [State.pushed, State.storeTo, State.storeAt, State.setStackPointer_draws]
  split <;> rfl

theorem State.pushes_fields (s : State) (n : Nat) (vs : List Nat) : (s.pushes n vs).eflags = s.eflags ∧
    (s.pushes n vs).segs = s.segs ∧ (s.pushes n vs).draws = s.draws ∧ (s.pushes n vs).plainWalks = s.plainWalks := by
  induction vs generalizing s with
  | nil => exact ⟨rfl, rfl, rfl, rfl⟩
  | cons v vs ih => simpa [State.pushes] using ih (s.pushed n v)

theorem State.pushes_append (s : State) (n : Nat) (vs ws : List Nat) :
    s.pushes n (vs ++ ws) = (s.pushes n vs).pushes n ws := by
  induction vs generalizing s with
  | nil => rfl
  | cons v vs ih => exact ih (s.pushed n v)

theorem State.canPushes_append (s : State) (n : Nat) (vs ws : List Nat) :
    s.canPushes n (vs ++ ws) = (s.canPushes n vs && (s.pushes n vs).canPushes n ws) := by
  induction vs generalizing s with
  | nil => rfl
  | cons v vs ih =>
    simp only [List.cons_append, State.canPushes, State.pushes, ih (s.pushed n v), Bool.and_assoc]

/-- A draw does not matter for pushes, nor they for it. -/
theorem State.imaged_pushes (s : State) (m n : Nat) (vs : List Nat) :
    (s.imaged m).pushes n vs = (s.pushes n vs).imaged m ∧ (s.imaged m).canPushes n vs = s.canPushes n vs := by
  induction vs generalizing s with
  | nil => exact ⟨rfl, rfl⟩
  | cons v vs ih =>
    simp only [State.pushes, State.canPushes, State.pushed_imaged, State.imaged_canPush, ih (s.pushed n v), and_self]

theorem State.imaged_fields (s : State) (n : Nat) :
    (s.imaged n).eflags = s.eflags ∧ (s.imaged n).draws = (if n = 4 then s.draws + 1 else s.draws) := by
  unfold State.imaged
  split <;> exact ⟨rfl, rfl⟩

theorem pushError_eq (n : Nat) (vec : Byte) (src : Source) (err : Option Half) :
    pushError n vec src err = pushList n (errorItems vec src err) := by
  have hvec : hasErrorCode vec = true ↔ vec = 10 ∨ vec = 11 ∨ vec = 12 ∨ vec = 13 ∨ vec = 14 := by
    simp [hasErrorCode, or_assoc]
  simp only [pushError, errorItems, hvec]
  split
  · exact (bind_pure_unit).symm
  · rfl

/-! ### The handler and its level: the states that a delivery passes (20_memory R115, 60_exceptions R502 to R505) -/

/-- Control at a handler, with the flags that a delivery clears (60_exceptions R505). -/
def State.entered (s : State) (eip : Word) (clear : Word → Word) : State :=
  { s with eip := eip, eflags := clear s.eflags, activity := .running, tfAtStart := false }

theorem enterHandler_run (eip : Word) (clear : Word → Word) (s : State) :
    enterHandler eip clear s = .ok ((), s.entered eip clear) := rfl

theorem State.vectored_eq (s : State) (vec : Byte) (ret : Word) : s.vectored vec ret =
    ((s.pushes 2 (s.vectorFrame ret)).setSeg .cs
      (realSegment s.segs.cs ((s.vectorEntry vec).extractLsb' 16 16))).entered
      (((s.vectorEntry vec).extractLsb' 0 16).setWidth 32) realFlags := by
  rw [State.vectored, State.entered, State.setSeg_eflags, (s.pushes_fields 2 _).1]
  rfl

theorem State.atHandler_eq (s x : State) (vec : Byte) (h : x.eflags = s.eflags) : s.atHandler x vec =
    x.entered ((s.gate vec).gateOffset ((s.gate vec).type.getLsbD 3)) (gateFlags (s.gate vec).type) := by
  have hflags (fl : Word) : gateFlags (s.gate vec).type fl =
      (if (s.gate vec).type = 6 ∨ (s.gate vec).type = 14 then setFlag .intf false else id)
        (setFlag .tf false (setFlag .nt false fl)) := by
    simp only [gateFlags, Bool.or_eq_true, beq_iff_eq]
    split <;> rfl
  rw [State.atHandler, State.entered, h, hflags]

theorem State.gated_eq (s : State) (vec : Byte) (src : Source) (err : Option Half) (ret : Word) :
    s.gated vec src err ret =
      ((s.levelEntered vec).pushes (s.gateBytes vec) (s.gateFrame s vec src err ret)).entered
        ((s.gate vec).gateOffset ((s.gate vec).type.getLsbD 3)) (gateFlags (s.gate vec).type) := by
  refine s.atHandler_eq _ vec ?_
  rw [(State.pushes_fields _ _ _).1, State.levelEntered, (State.imaged_fields _ _).1, State.setSeg_eflags]

/-- The stack of a level can be read from the TSS (20_memory R115). -/
def State.hasTssStack (s : State) (lvl : BitVec 2) : Bool :=
  s.tr.valid && decide ((s.tssAt lvl).1 + (s.tssAt lvl).2 + 1 ≤ s.tr.limit.toNat) &&
    s.backed .read false (s.tr.base + BitVec.ofNat 32 (s.tssAt lvl).1) (s.tssAt lvl).2 &&
    s.backed .read false (s.tr.base + BitVec.ofNat 32 ((s.tssAt lvl).1 + (s.tssAt lvl).2)) 2

theorem State.canSwitch_eq (s : State) (lvl : BitVec 2) :
    s.canSwitch lvl = (s.hasTssStack lvl && s.outerStackOk (s.tssStackSel lvl) lvl) := by
  simp only [State.canSwitch, State.hasTssStack, State.outerStackOk, Bool.and_assoc]

theorem State.tssAt_eq (s : State) (lvl : BitVec 2) : s.tssAt lvl =
    (2 * (if s.tr.is32 then 4 else 2) * lvl.toNat + (if s.tr.is32 then 4 else 2), if s.tr.is32 then 4 else 2) := by
  unfold State.tssAt
  split <;> rfl

/-- The stack that a delivery to an inner level switches to (60_exceptions R503). -/
def State.switched (s : State) (lvl : BitVec 2) : State :=
  (s.setSeg .ss ((s.desc (s.tssStackSel lvl)).segment (s.tssStackSel lvl))).setReg .esp (s.tssPointer lvl)

/-- A handler's level is inner exactly where the stack is switched (60_exceptions R502). -/
theorem switches_eq (h : s.handlerOk vec = true) :
    (!(s.desc (s.gate vec).gateSelector).rights.conforming && decide ((s.desc (s.gate vec).gateSelector).dpl < s.cpl)) =
      !s.sameLevel vec := by
  simp only [State.handlerOk, Bool.and_eq_true, decide_eq_true_eq] at h
  obtain ⟨⟨⟨-, hlevel⟩, -⟩, -⟩ := h
  have hlt : decide ((s.desc (s.gate vec).gateSelector).dpl < s.cpl) =
      !((s.desc (s.gate vec).gateSelector).dpl == s.cpl) := by
    rw [Bool.eq_iff_iff, decide_eq_true_eq, Bool.not_eq_true', beq_eq_false_iff_ne]
    exact ⟨BitVec.ne_of_lt, BitVec.lt_of_le_ne hlevel⟩
  rw [hlt, State.sameLevel, Bool.not_or]

/-- The state in which a delivery to an inner level pushes the old SS and ESP (60_exceptions R502, R503). -/
def State.innerStacked (s : State) (vec : Byte) : State :=
  ((s.switched (s.desc (s.gate vec).gateSelector).dpl).setSeg .cs
    (s.handlerCs vec (s.desc (s.gate vec).gateSelector).dpl)).imaged (s.gateBytes vec)

/-- The old SS and ESP, as they are pushed (60_exceptions R502). -/
def State.oldStack (s : State) (n : Nat) : List Nat :=
  [s.selValue n s.segs.ss.sel, s.regs.esp.toNat]

theorem enterLevel_same (hok : s.handlerOk vec = true) (hsame : s.sameLevel vec = true) (n : Nat) (ext : Bool) {a : Unit} :
    enterLevel s (s.gate vec).gateSelector (s.desc (s.gate vec).gateSelector) n ext s = .ok (a, t) ↔
      t = s.setSeg .cs (s.handlerCs vec s.cpl) := by
  simp [enterLevel, switches_eq hok, hsame, State.handlerCs, eq_comm (b := t)]

/-- The state in which a delivery to an inner level has pushed the old SS and ESP (60_exceptions R502, R503). -/
def State.innerPushed (s : State) (vec : Byte) : State :=
  (s.innerStacked vec).pushes (s.gateBytes vec) (s.oldStack (s.gateBytes vec))

theorem State.innerPushed_fields (s : State) (vec : Byte) : (s.innerPushed vec).eflags = s.eflags ∧
    (s.innerPushed vec).draws = (s.imaged (s.gateBytes vec)).draws ∧ (s.innerPushed vec).plainWalks = s.plainWalks := by
  obtain ⟨heflags, -, hdraws, hwalks⟩ :=
    (s.innerStacked vec).pushes_fields (s.gateBytes vec) (s.oldStack (s.gateBytes vec))
  rw [State.innerPushed, heflags, hdraws, hwalks, State.innerStacked, State.imaged_plainWalks,
    (State.imaged_fields _ _).1, (State.imaged_fields _ _).2, (State.imaged_fields _ _).2]
  exact ⟨rfl, rfl, rfl⟩

/-- The frame of an inner delivery in its two parts, before and after the draw for CS (60_exceptions R502, R504). -/
theorem State.innerFrame_pushes (s : State) (vec : Byte) (src : Source) (err : Option Half) (ret : Word) :
    (s.innerEntered vec).canPushes (s.gateBytes vec) (s.innerFrame vec src err ret) =
      ((s.innerStacked vec).canPushes (s.gateBytes vec) (s.oldStack (s.gateBytes vec)) &&
        ((s.innerPushed vec).imaged (s.gateBytes vec)).canPushes (s.gateBytes vec)
          (s.gateFrame (s.innerPushed vec) vec src err ret)) ∧
    (s.innerEntered vec).pushes (s.gateBytes vec) (s.innerFrame vec src err ret) =
      ((s.innerPushed vec).imaged (s.gateBytes vec)).pushes (s.gateBytes vec)
        (s.gateFrame (s.innerPushed vec) vec src err ret) := by
  have hentered : s.innerEntered vec = (s.innerStacked vec).imaged (s.gateBytes vec) := rfl
  have hframe : s.innerFrame vec src err ret =
      s.oldStack (s.gateBytes vec) ++ s.gateFrame (s.innerPushed vec) vec src err ret := by
    simp only [State.innerFrame, State.oldStack, State.gateFrame,
      State.selValue_congr (s.innerPushed_fields vec).2.1]
  rw [hentered, hframe, State.canPushes_append, State.pushes_append, (State.imaged_pushes _ _ _ _).1,
    (State.imaged_pushes _ _ _ _).2]
  exact ⟨rfl, rfl⟩

theorem State.gatedInner_eq (s : State) (vec : Byte) (src : Source) (err : Option Half) (ret : Word) :
    s.gatedInner vec src err ret =
      ((s.innerEntered vec).pushes (s.gateBytes vec) (s.innerFrame vec src err ret)).entered
        ((s.gate vec).gateOffset ((s.gate vec).type.getLsbD 3)) (gateFlags (s.gate vec).type) := by
  refine s.atHandler_eq _ vec ?_
  rw [(s.innerFrame_pushes ..).2, (State.pushes_fields _ _ _).1, (State.imaged_fields _ _).1,
    (s.innerPushed_fields vec).1]

/-! ### Reads, pushes and descriptors -/

theorem ok_iff {α : Type} {x : Except Stop (α × State)} {c : Prop} {v : α} {t' : State} (hrun : c → x = .ok (v, t'))
    {a : α} (hok : x = .ok (a, t) → c) : x = .ok (a, t) ↔ c ∧ a = v ∧ t = t' := by
  constructor
  · intro h
    have hc := hok h
    rw [hrun hc] at h
    cases h
    exact ⟨hc, rfl, rfl⟩
  · rintro ⟨hc, rfl, rfl⟩
    exact hrun hc

section
variable (hw : s.plainWalks = true)
include hw

theorem sysRead_iff {lin : Word} {v : Nat} :
    sysRead lin n s = .ok (v, t) ↔ s.backed .read false lin n = true ∧ v = s.valueAt false lin n ∧ t = s :=
  ok_iff (linRead_run hw) (linRead_backed hw)

theorem segWrite_writable {g : SReg} {off : Word} {v : Nat} {a : Unit} (h : segWrite g off n v s = .ok (a, t)) :
    s.writable g off n = true := by
  obtain ⟨_, u, hcheck, hwrite⟩ := bind_ok.1 h
  have hcheck' := hcheck
  obtain rfl := checkSegment_ok hcheck
  have hin : (u.seg g).inBounds off n = true := by
    obtain ⟨_, _, hget, hrest⟩ := bind_ok.1 hcheck'
    cases hget
    obtain ⟨_, _, hbounds, _⟩ := bind_ok.1 hrest
    exact (check_ok.1 hbounds).1
  have hmay : u.mayWrite g = true := by
    rw [checkSegment_write_inBounds hin] at hcheck'
    split at hcheck'
    · assumption
    · cases hcheck'
  have hbacked : u.backed .write u.user (u.linear g off) n = true := linWrite_backed hw hwrite
  rw [State.writable, hin, hmay, hbacked]
  rfl

theorem push_iff {v : Nat} {a : Unit} : push n v s = .ok (a, t) ↔ s.canPush n = true ∧ t = s.pushed n v := by
  refine (ok_iff (fun h => push_run hw h v) fun h => ?_).trans (by simp)
  obtain ⟨_, _, hget, hrest⟩ := bind_ok.1 h
  cases hget
  obtain ⟨_, _, hwrite, _⟩ := bind_ok.1 hrest
  exact segWrite_writable hw hwrite

theorem readDescriptor_iff {d : Desc} :
    readDescriptor sel vec ext s = .ok (d, t) ↔ s.hasDesc sel = true ∧ d = s.desc sel ∧ t = s := by
  refine ok_iff (fun h => readDescriptor_desc hw h vec ext) fun h => ?_
  simp only [readDescriptor, bind_ok, get_run, check_ok] at h
  obtain ⟨_, _, hget, _, _, ⟨hldt, rfl⟩, _, _, ⟨hlimit, rfl⟩, _, _, hread, _⟩ := h
  cases hget
  simp only [State.hasDesc, hldt, hlimit, Bool.true_and]
  exact linRead_backed hw hread

theorem stackSegFor_iff {g : Segment} : stackSegFor sel lvl vec ext s = .ok (g, t) ↔
    s.outerStackOk sel lvl = true ∧ g = (s.desc sel).segment sel ∧ t = s := by
  refine ok_iff (fun h => stackSegFor_run hw h vec ext) fun h => ?_
  simp only [stackSegFor, bind_ok, check_ok] at h
  obtain ⟨_, _, ⟨hnull, rfl⟩, _, _, hread, _, _, ⟨hdata, rfl⟩, _, _, ⟨hpresent, rfl⟩, _⟩ := h
  obtain ⟨hd, rfl, rfl⟩ := (readDescriptor_iff hw).1 hread
  simp only [Bool.and_eq_true] at hdata
  obtain ⟨⟨⟨hrpl, hs⟩, hwritable⟩, hdpl⟩ := hdata
  simp only [State.outerStackOk, hnull, hd, hrpl, hs, hwritable, hdpl, hpresent, Bool.and_self]

theorem pushList_iff {vs : List Nat} {a : Unit} :
    pushList n vs s = .ok (a, t) ↔ s.canPushes n vs = true ∧ t = s.pushes n vs := by
  induction vs generalizing s with
  | nil => simp [pushList, State.canPushes, State.pushes, eq_comm]
  | cons v vs ih =>
    simp [pushList, bind_ok, push_iff hw, State.canPushes, State.pushes, and_assoc, ih ((s.pushed_plainWalks n v).trans hw)]

/-! ### The gate and its handler (60_exceptions R502) -/

theorem readGate_iff {g : Desc} :
    readGate vec src s = .ok (g, t) ↔ s.gateOk vec src = true ∧ g = s.gate vec ∧ t = s := by
  have htype : ∀ ty : BitVec 4, (ty == 6 || ty == 7 || ty == 14 || ty == 15) = (gateType ty && ty != 5) := by decide
  rw [State.gateOk, htype]
  refine ok_iff (fun h => ?_) fun h => ?_
  · simp only [Bool.and_eq_true (_ && _), Bool.and_eq_true (decide _), Bool.and_eq_true (gateType _)] at h
    obtain ⟨⟨⟨⟨⟨hlimit, hread⟩, hsystem⟩, hpresent⟩, htype, htask⟩, hdpl⟩ := h
    rw [State.gate] at hsystem hpresent htype htask hdpl ⊢
    simp only [readGate, bind_run, get_run, hlimit, check_true, sysRead, linRead_run hw hread, hsystem, htype,
      Bool.and_self, hdpl, hpresent, htask, pure_run]
  · simp only [readGate, bind_ok, get_run, check_ok] at h
    obtain ⟨_, _, hget, _, _, ⟨hlimit, rfl⟩, _, _, hread, _, _, ⟨htype, rfl⟩, _, _, ⟨hdpl, rfl⟩, _, _, ⟨hpresent, rfl⟩,
      _, _, ⟨htask, rfl⟩, _⟩ := h
    cases hget
    obtain ⟨hbacked, rfl, rfl⟩ := (sysRead_iff hw).1 hread
    obtain ⟨hsystem, hgate⟩ := Bool.and_eq_true_iff.1 htype
    rw [State.gate]
    simp only [hlimit, hbacked, hsystem, hpresent, hgate, htask, hdpl, Bool.and_self]

theorem readHandler_iff {d : Desc} : readHandler (s.gate vec) ext s = .ok (d, t) ↔
    s.handlerOk vec = true ∧ d = s.desc (s.gate vec).gateSelector ∧ t = s := by
  refine ok_iff (fun h => ?_) fun h => ?_
  · simp only [State.handlerOk, Bool.and_eq_true, Bool.not_eq_true'] at h
    obtain ⟨⟨⟨⟨⟨⟨hnull, hd⟩, hs⟩, hcode⟩, hlevel⟩, hpresent⟩, hlimit⟩ := h
    simp only [readHandler, bind_run, get_run, hnull, Bool.not_false, readDescriptor_desc hw hd, hs, hcode, hlevel,
      Bool.and_self, hpresent, hlimit, check_true, pure_run]
  · simp only [readHandler, bind_ok, get_run, check_ok] at h
    obtain ⟨_, _, hget, _, _, ⟨hnull, rfl⟩, _, _, hread, _, _, ⟨hcode, rfl⟩, _, _, ⟨hpresent, rfl⟩, _, _,
      ⟨hlimit, rfl⟩, _⟩ := h
    cases hget
    obtain ⟨hd, rfl, rfl⟩ := (readDescriptor_iff hw).1 hread
    simp only [Bool.and_eq_true] at hcode
    obtain ⟨⟨hs, hcode⟩, hlevel⟩ := hcode
    simp only [State.handlerOk, hnull, hd, hs, hcode, hlevel, hpresent, hlimit, Bool.and_self]

/-! ### The stack of an inner level (20_memory R115, 60_exceptions R503) -/

theorem readTssStack_iff {p : Word × Half} : readTssStack lvl ext s = .ok (p, t) ↔
    s.hasTssStack lvl = true ∧ p = (s.tssPointer lvl, s.tssStackSel lvl) ∧ t = s := by
  rw [State.hasTssStack, State.tssPointer, State.tssStackSel, State.tssAt_eq]
  refine ok_iff (fun h => ?_) fun h => ?_
  · simp only [Bool.and_eq_true (_ && _)] at h
    obtain ⟨⟨hvalid, hsp⟩, hss⟩ := h
    simp only [readTssStack, bind_run, get_run, hvalid, check_true, sysRead, linRead_run hw hsp, linRead_run hw hss,
      pure_run]
  · simp only [readTssStack, bind_ok, get_run, check_ok] at h
    obtain ⟨_, _, hget, _, _, ⟨hvalid, rfl⟩, _, _, hsp, _, _, hss, _⟩ := h
    cases hget
    obtain ⟨hbacked, rfl, rfl⟩ := (sysRead_iff hw).1 hsp
    obtain ⟨hbacked', rfl, rfl⟩ := (sysRead_iff hw).1 hss
    simp only [hvalid, hbacked, hbacked', Bool.and_self]

theorem stackSwitch_iff {a : Unit} :
    stackSwitch lvl ext s = .ok (a, t) ↔ s.canSwitch lvl = true ∧ t = s.switched lvl := by
  rw [State.canSwitch_eq, Bool.and_eq_true]
  constructor
  · intro h
    obtain ⟨_, _, hread, h⟩ := bind_ok.1 h
    obtain ⟨htss, rfl, rfl⟩ := (readTssStack_iff hw).1 hread
    obtain ⟨_, _, hseg, h⟩ := bind_ok.1 h
    obtain ⟨hss, rfl, rfl⟩ := (stackSegFor_iff hw).1 hseg
    cases h
    exact ⟨⟨htss, hss⟩, rfl⟩
  · rintro ⟨⟨htss, hss⟩, rfl⟩
    simp only [stackSwitch, bind_run, (readTssStack_iff hw).2 ⟨htss, rfl, rfl⟩, (stackSegFor_iff hw).2 ⟨hss, rfl, rfl⟩,
      modify_run]
    rfl

/-! ### Delivery (60_exceptions R501, R502) -/

theorem deliverReal_iff (hpe : s.pe = false) {a : Unit} :
    deliverReal vec ret s = .ok (a, t) ↔ s.canVector vec ret = true ∧ t = s.vectored vec ret := by
  rw [State.vectored_eq]
  simp [deliverReal, bind_ok, check_ok, sysRead_iff, push_iff, hw, hpe, State.canVector, State.vectorFrame,
    State.canPushes, State.pushes, enterHandler_run, State.vectorEntry, and_assoc, eq_comm (b := t)]

/-- Control at the handler of a gate, after the pushes that every gate delivery makes at its new level (60_exceptions R502). -/
theorem pushFrame_iff {fl eip : Nat} {e : Word} {clear : Word → Word} {a : Unit} :
    (push n fl >>= fun _ => selImage n sel >>= fun cs => push n cs >>= fun _ => push n eip >>= fun _ =>
      pushError n vec src err >>= fun _ => enterHandler e clear) s = .ok (a, t) ↔
    (s.imaged n).canPushes n ([fl, s.selValue n sel, eip] ++ errorItems vec src err) = true ∧
      t = ((s.imaged n).pushes n ([fl, s.selValue n sel, eip] ++ errorItems vec src err)).entered e clear := by
  simp [bind_ok, selImage_run, push_iff, pushError_eq, pushList_iff, hw, State.selValue_congr (s.pushed_draws n fl),
    State.canPushes,
    State.pushes, State.imaged_plainWalks, State.imaged_canPush, State.pushed_imaged, enterHandler_run, and_assoc,
    eq_comm (b := t)]

theorem enterLevel_inner (hok : s.handlerOk vec = true) (hinner : s.sameLevel vec = false) (ext : Bool) {a : Unit} :
    enterLevel s (s.gate vec).gateSelector (s.desc (s.gate vec).gateSelector) (s.gateBytes vec) ext s = .ok (a, t) ↔
      s.canSwitch (s.desc (s.gate vec).gateSelector).dpl = true ∧
        (s.innerStacked vec).canPushes (s.gateBytes vec) (s.oldStack (s.gateBytes vec)) = true ∧
        t = (s.innerStacked vec).pushes (s.gateBytes vec) (s.oldStack (s.gateBytes vec)) := by
  have hw' (lvl : BitVec 2) (g : Segment) : ((s.switched lvl).setSeg .cs g).plainWalks = true := hw
  have hsel (lvl : BitVec 2) (g : Segment) (n : Nat) (sel : Half) :
      ((s.switched lvl).setSeg .cs g).selValue n sel = s.selValue n sel := rfl
  simp [enterLevel, switches_eq hok, hinner, bind_ok, stackSwitch_iff hw, selImage_run, push_iff, hw', hsel,
    State.imaged_plainWalks, State.innerStacked, State.oldStack, State.canPushes, State.pushes, and_assoc,
    State.handlerCs]

/-- A gate delivery: its checks, the entry to its level, and then its frame and its handler. -/
theorem deliverProtected_iff {a : Unit} : deliverProtected vec src err ret s = .ok (a, t) ↔
    (s.gateOk vec src = true ∧ s.handlerOk vec = true) ∧ ∃ u,
      enterLevel s (s.gate vec).gateSelector (s.desc (s.gate vec).gateSelector) (s.gateBytes vec) (src != .softInt) s =
        .ok ((), u) ∧
      (push (s.gateBytes vec) s.eflags.toNat >>= fun _ => selImage (s.gateBytes vec) s.segs.cs.sel >>= fun cs =>
        push (s.gateBytes vec) cs >>= fun _ => push (s.gateBytes vec) ret.toNat >>= fun _ =>
        pushError (s.gateBytes vec) vec src err >>= fun _ =>
        enterHandler ((s.gate vec).gateOffset ((s.gate vec).type.getLsbD 3)) (gateFlags (s.gate vec).type)) u =
          .ok (a, t) := by
  constructor
  · intro h
    obtain ⟨_, _, hget, h⟩ := bind_ok.1 h
    cases hget
    obtain ⟨_, _, hread, h⟩ := bind_ok.1 h
    obtain ⟨hgate, rfl, rfl⟩ := (readGate_iff hw).1 hread
    obtain ⟨_, _, hread, h⟩ := bind_ok.1 h
    obtain ⟨hhandler, rfl, rfl⟩ := (readHandler_iff hw).1 hread
    obtain ⟨_, u, hlevel, h⟩ := bind_ok.1 h
    exact ⟨⟨hgate, hhandler⟩, u, hlevel, h⟩
  · rintro ⟨⟨hgate, hhandler⟩, u, hlevel, h⟩
    exact bind_ok.2 ⟨_, _, rfl, bind_ok.2 ⟨_, _, (readGate_iff hw).2 ⟨hgate, rfl, rfl⟩,
      bind_ok.2 ⟨_, _, (readHandler_iff hw).2 ⟨hhandler, rfl, rfl⟩, bind_ok.2 ⟨_, u, hlevel, h⟩⟩⟩⟩

theorem deliverProtected_same (hpe : s.pe = true) (hsame : s.sameLevel vec = true) {a : Unit} :
    deliverProtected vec src err ret s = .ok (a, t) ↔
      s.canGate vec src err ret = true ∧ t = s.gated vec src err ret := by
  have hw' (g : Segment) : (s.setSeg .cs g).plainWalks = true := hw
  rw [deliverProtected_iff hw, State.gated_eq, State.canGate, hpe, hsame]
  simp only [Bool.true_and, Bool.and_true, Bool.and_eq_true]
  refine (and_congr_right fun ⟨_, hok⟩ => ?_).trans and_assoc.symm
  simp only [enterLevel_same hok hsame, exists_eq_left, pushFrame_iff (hw' _)]
  rfl

theorem deliverProtected_inner (hpe : s.pe = true) (hinner : s.sameLevel vec = false) {a : Unit} :
    deliverProtected vec src err ret s = .ok (a, t) ↔
      s.canGateInner vec src err ret = true ∧ t = s.gatedInner vec src err ret := by
  obtain ⟨-, -, hwalks⟩ := s.innerPushed_fields vec
  obtain ⟨hcan, hpushes⟩ := s.innerFrame_pushes vec src err ret
  rw [deliverProtected_iff hw, State.gatedInner_eq, State.canGateInner, hpe, hinner, hcan, hpushes]
  simp only [Bool.true_and, Bool.and_true, Bool.and_eq_true, Bool.not_false, and_assoc]
  refine and_congr_right fun _ => and_congr_right fun hok => ?_
  simp only [enterLevel_inner hw hok hinner, and_assoc, exists_and_left, exists_eq_left]
  exact and_congr_right fun _ => and_congr_right fun _ => pushFrame_iff (hwalks.trans hw)

/-- A delivery succeeds exactly where its checks pass, and then the handler is entered (60_exceptions R501, R502). -/
theorem deliver_iff {a : Unit} : deliver vec src err ret s = .ok (a, t) ↔
    s.canDeliver vec src err ret = true ∧ t = s.delivered vec src err ret := by
  have hstep : deliver vec src err ret s =
    (if s.pe then deliverProtected vec src err ret else deliverReal vec ret) s := rfl
  rw [hstep, State.canDeliver, hw, State.delivered]
  cases hpe : s.pe with
  | false =>
    simp [deliverReal_iff hw hpe, State.canGate, State.canGateInner, hpe]
  | true =>
    cases hlevel : s.sameLevel vec with
    | true => simp [deliverProtected_same hw hpe hlevel, State.canVector, State.canGateInner, hpe, hlevel]
    | false => simp [deliverProtected_inner hw hpe hlevel, State.canVector, State.canGate, hpe, hlevel]

end

end Sys2Proof.Machine
end

section
/-! PROOF. Software interrupts (46_control_transfer R460 to R462): INT n, INT3 and INTO are one operation of a vector, which a
host handler serves or a delivery takes. -/

namespace Sys2Proof.Machine

variable {s u : State} {i : Instr} {vec : Byte}

/-- The forms that interrupt run as their vector's operation; INTO by its flag OF (46_control_transfer R460 to R462). -/
theorem exec_softInt
    (hi : i = .intIb vec ∨ (i = .int3 ∧ vec = 3) ∨ (i = .into ∧ vec = 4 ∧ s.flag .of = true)) :
    ∃ body, exec i s = runInstr body s ∧ ∀ u : State, u.eflags = s.eflags → body u = softInt vec u := by
  obtain rfl | ⟨rfl, rfl⟩ | ⟨rfl, rfl, hof⟩ := hi
  · exact ⟨softInt vec, rfl, fun _ _ => rfl⟩
  · exact ⟨softInt 3, rfl, fun _ _ => rfl⟩
  · refine ⟨overflowInt, rfl, fun u hu => ?_⟩
    have hflag : u.flag .of = true := by rw [State.flag, hu]; exact hof
    simp only [overflowInt, bind_run, get_run, hflag, if_true]

/-- A vector that no handler serves is delivered (46_control_transfer R460). -/
theorem softInt_guest (h : s.guestVector vec = true) : softInt vec s = deliver vec .softInt none s.nextEip s := by
  simp only [State.guestVector, Bool.and_eq_true, Bool.not_eq_true', Bool.and_eq_false_iff, beq_eq_false_iff_ne] at h
  obtain ⟨hmux, hemu⟩ := h
  have hmux : ¬(vec = 0x2F ∧ s.params.multiplexHandlers.contains (s.view .b8 .esp) = true) := fun ⟨hv, hm⟩ =>
    hmux.elim (fun h => h hv) fun h => Bool.false_ne_true (h.symm.trans hm)
  simp only [softInt, bind_run, get_run, if_neg hmux, hemu, Bool.false_eq_true, if_false]

/-- A vector that a handler serves is a call of it: the multiplex handler first (46_control_transfer R460, 60_exceptions
R524). -/
theorem softInt_host (h : s.guestVector vec = false) : softInt vec s = .ok ((), { s.hostCall
    (if vec = 0x2F ∧ s.view .b8 .esp ∈ s.params.multiplexHandlers then .multiplex (s.view .b8 .esp)
     else .interrupt vec) with eip := s.nextEip }) := by
  simp only [softInt, bind_run, get_run, List.contains_iff_mem]
  split
  · next hmux => rfl
  · next hmux =>
    have hemu : vec ∈ s.params.emulatedVectors := by
      simp only [State.guestVector, Bool.and_eq_false_iff, Bool.not_eq_false', Bool.and_eq_true, beq_iff_eq,
        List.contains_iff_mem] at h
      exact h.resolve_left hmux
    rw [if_pos hemu]
    rfl

/-- Settles O20: the step is the delivery that passes its checks, or the call of the handler, or nothing but the advance. -/
theorem softInterruptsRun : Obligations.SoftInterruptsRun := by
  unfold Obligations.SoftInterruptsRun
  refine ⟨fun s i vec hw hi => ?_, fun s hw hof => ?_⟩
  · obtain ⟨body, hexec, hbody⟩ := exec_softInt hi
    refine ⟨fun hguest hdeliver => ?_, fun hhost => ?_⟩
    · refine hexec.trans (runInstr_ok hw ((hbody s rfl).trans ((softInt_guest hguest).trans ?_)))
      exact (deliver_iff hw).2 ⟨hdeliver, rfl⟩
    · exact hexec.trans (runInstr_ok hw ((hbody s rfl).trans (softInt_host hhost)))
  · refine runInstr_ok (body := overflowInt) hw ?_
    simp only [overflowInt, bind_run, get_run, hof, Bool.false_eq_true, if_false, advance_run]
    rfl

end Sys2Proof.Machine
end

section
/-! PROOF. What jumps, calls and returns leave alone (46_control_transfer R430 to R470): near transfers change EIP, the count and
the stack; far transfers also CS, and returns outward every segment register, and of memory only the slots of the pushes and
the mark of the new code segment. -/

namespace Sys2Proof.Machine

variable {α : Type} {regs : List Reg} {segs : List SReg} {mask : Word} {s t u x : State} {osz : Size} {sel : Half}
  {off : Word} {iw : Half} {i : Instr} {body : Exec Unit}

/-! ### Near transfers (46_control_transfer R430 to R440) -/

/-- An instruction that sets EIP itself takes an exception, or its body ran to the end; its own fetch stores nothing
(20_memory R134). -/
theorem framed_of_run_storesAt {stores : State → List Store} (hi : exec i s = runInstr body s)
    (hk : Keeps (StoresAt regs segs stores) body) : Framed i s ⟨regs, segs, 0, stores s⟩ := by
  refine fun t ht => (runInstr_ran (hi ▸ ht)).imp_right fun hran => ?_
  obtain ⟨_, s', hfetch, hbody⟩ := bind_ok.1 hran
  have hs : Changes [] 0 s s' := touchFetch_keeps (changes_preserved _ _) changes_mark _ _ _ hfetch
  refine Frame.keeps_trans ((hs.mono (List.nil_subset _)).storesAt stores) (hk s' () t hbody) fun hw a ha => ⟨ha, ?_⟩
  rw [touchFetch_run hw] at hfetch
  cases hfetch
  exact ha

section
variable (hesp : .esp ∈ regs)
include hesp

theorem callNear_storesAt (t : Word) : Keeps (StoresAt regs segs fun s => [s.pushStore osz.bytes]) (callNear osz t) :=
  .changesThen (stable_pushStore _) (.get (changes_preserved _ _)) fun _ =>
    .storesAtThen (push_storesAt hesp _ _) fun _ => nearTarget_keeps (changes_preserved _ _) changes_eip _ _

theorem callRel_storesAt (rel : Word) : Keeps (StoresAt regs segs fun s => [s.pushStore osz.bytes]) (callRel osz rel) :=
  .changesThen (stable_pushStore _) (.get (changes_preserved _ _)) fun _ => callNear_storesAt hesp _

theorem callRM_storesAt (rm : RM) : Keeps (StoresAt regs segs fun s => [s.pushStore osz.bytes]) (callRM osz rm) :=
  .changesThen (stable_pushStore _) (readRM_keeps (changes_preserved _ _) changes_mark _ _) fun _ =>
    callNear_storesAt hesp _

end

/-! ### Far JMP and CALL (46_control_transfer R445 to R447) -/

/-- Where page walks write nothing, nothing changes. -/
def SameIfPlain (s t : State) : Prop :=
  s.plainWalks = true → t = s

theorem sameIfPlain_preserved : Preserved SameIfPlain where
  refl := fun _ _ => rfl
  trans := fun s t u h k hw => by obtain rfl := h hw; exact k hw

theorem sameIfPlain_mark : OfMark SameIfPlain := fun s a v had _ hw => by
  rw [State.plainWalks_off hw] at had
  cases had

theorem untouched_append {A B : List Store} {a : Nat} : Untouched (A ++ B) a ↔ Untouched A a ∧ Untouched B a := by
  simp only [Untouched, List.mem_append, or_imp, forall_and]

theorem SameSystem.pe (h : SameSystem s t) : t.pe = s.pe := by
  obtain ⟨-, -, -, -, hcr0, -⟩ := h
  rw [State.pe, hcr0, State.pe]

section
variable (hcs : .cs ∈ segs)
include hcs

theorem farLoad_storesAt (g : Segment) (e : Word) (stores : State → List Store) (x : State) :
    StoresAt regs segs stores x { x.setSeg .cs g with eip := e } :=
  StoresAt.thenChanges (setSeg_storesAt hcs x g stores) (changes_eip (x.setSeg .cs g) e)

theorem farLoadThenMark_storesAt (g : Segment) (e : Word) (sel : Half) (d : Desc) :
    Keeps (StoresAt regs segs fun x => x.markStores sel)
      ((modify fun x => { x.setSeg .cs g with eip := e }) >>= fun _ => markDescriptor sel d 1) := by
  intro x b t h
  exact Frame.keeps_trans (farLoad_storesAt hcs g e (fun x => x.markStores sel) x)
    (markDescriptor_storesAt sel d 1 { x.setSeg .cs g with eip := e } b t h)
    fun _ _ ha => ⟨ha, markStores_untouched (u := { x.setSeg .cs g with eip := e }) (.refl x) rfl ha⟩

/-- A far transfer stores what comes between its checks and its loads does, and then the mark of the target, placed by the
state that comes between gives. -/
theorem farTransfer_storesAt {A : State → List Store} {f : State → State} {between : Exec Unit}
    (hb : Keeps (StoresAt regs segs A) between)
    (hf : ∀ s t, s.plainWalks = true → between s = .ok ((), t) → t = f s) :
    Keeps (StoresAt regs segs fun s => A s ++ (f s).loadStores sel) (farTransfer osz sel off between) := by
  refine .getBind fun s b t h => ?_
  have assemble {u x : State} (hsu : Changes [] 0 s u) (hplain : SameIfPlain s u) (hx : between u = .ok ((), x))
      (hxt : StoresAt regs segs (fun x => x.loadStores sel) x t) :
      StoresAt regs segs (fun s => A s ++ (f s).loadStores sel) s t := by
    have hut : (⟨regs, segs, 0, A u ++ x.loadStores sel⟩ : Frame).keeps u t :=
      Frame.keeps_trans (hb u () x hx) hxt fun _ _ ha => untouched_append.1 ha
    refine Frame.keeps_trans ((hsu.mono (List.nil_subset _)).storesAt fun _ => []) hut fun hw a ha =>
      ⟨fun _ hm => (List.not_mem_nil hm).elim, ?_⟩
    obtain rfl := hplain hw
    rwa [hf _ _ hw hx]
  cases hpe : s.pe with
  | false =>
    rw [if_neg (by simp [hpe])] at h
    obtain ⟨_, u, hcheck, hrest⟩ := bind_ok.1 h
    obtain ⟨-, rfl⟩ := check_ok.1 hcheck
    obtain ⟨_, x, hx, hload⟩ := bind_ok.1 hrest
    cases hload
    exact assemble ((changes_preserved _ _).refl u) (fun _ => rfl) hx (farLoad_storesAt hcs _ _ _ x)
  | true =>
    rw [if_pos hpe] at h
    obtain ⟨d, u, hcheck, h⟩ := bind_ok.1 h
    obtain ⟨_, x, hx, h⟩ := bind_ok.1 h
    have hsu := checkFarTarget_keeps (changes_preserved [] 0) changes_mark _ _ s d u hcheck
    have hplain := checkFarTarget_keeps sameIfPlain_preserved sameIfPlain_mark _ _ s d u hcheck
    have hxpe : x.pe = true := by rw [(hb u () x hx).2.1.pe, hsu.system.pe, hpe]
    have hxt := farLoadThenMark_storesAt (regs := regs) hcs _ _ sel d x b t h
    refine assemble hsu hplain hx ?_
    rw [StoresAt, State.loadStores, if_pos hxpe]
    exact hxt

theorem jumpFar_storesAt : Keeps (StoresAt regs segs fun s => s.loadStores sel) (jumpFar osz sel off) :=
  farTransfer_storesAt (A := fun _ => []) (f := id) hcs
    (fun s _ _ h => by cases h; exact ((changes_preserved _ _).refl s).storesAt _) fun _ _ _ h => by cases h; rfl

end

/-- Where the pushes of a far CALL store (46_control_transfer R447). -/
def State.returnStores (s : State) (n : Nat) : List Store :=
  [s.pushStore n, ((s.imaged n).pushed n (s.selValue n s.segs.cs.sel)).pushStore n]

theorem pushReturn_ok (hw : s.plainWalks = true) {a : Unit} (h : pushReturn osz s = .ok (a, t)) :
    t = s.returnPushed osz.bytes := by
  rw [pushReturn_eq] at h
  exact ((pushList_iff ((s.imaged_plainWalks _).trans hw)).1 h).2

theorem imaged_changes (s : State) (n : Nat) : Changes regs mask s (s.imaged n) := by
  unfold State.imaged
  split
  · exact changes_draw s
  · exact (changes_preserved _ _).refl s

theorem pushReturn_storesAt (hesp : .esp ∈ regs) :
    Keeps (StoresAt regs segs fun s => s.returnStores osz.bytes) (pushReturn osz) := by
  intro s b t h
  rw [pushReturn_eq] at h
  refine Frame.keeps_trans ((imaged_changes s osz.bytes).storesAt fun _ => [])
    (pushList_storesAt hesp _ _ _ b t h) fun hw a ha => ⟨fun _ hm => (List.not_mem_nil hm).elim, ?_⟩
  obtain ⟨hcs, hip⟩ := List.forall_mem_cons.1 ha
  exact List.forall_mem_cons.2 ⟨stable_pushStore _ s _ a (imaged_changes s _) hw (List.forall_mem_singleton.2 hcs) _
    (List.mem_singleton.2 rfl), hip⟩

theorem callFar_storesAt (hesp : .esp ∈ regs) (hcs : .cs ∈ segs) :
    Keeps (StoresAt regs segs fun s => s.returnStores osz.bytes ++ (s.returnPushed osz.bytes).loadStores sel)
      (callFar osz sel off) :=
  farTransfer_storesAt hcs (pushReturn_storesAt hesp) fun _ _ hw h => pushReturn_ok hw h

theorem readFarPointer_ok (osz : Size) (m : MemOp) (s : State) (p : Half × Word) (t : State)
    (h : readFarPointer osz m s = .ok (p, t)) : Changes [] 0 s t ∧ (s.plainWalks = true → t = s ∧
      p = s.farPointer osz m) := by
  refine ⟨readFarPointer_keeps (changes_preserved _ _) changes_mark osz m s p t h, fun hw => ?_⟩
  obtain ⟨_, _, hget, h⟩ := bind_ok.1 h
  cases hget
  obtain ⟨v, _, hread, h⟩ := bind_ok.1 h
  obtain ⟨rfl, rfl⟩ := segRead_ok hw hread
  cases h
  exact ⟨rfl, rfl⟩

theorem jumpFarMem_storesAt (hcs : .cs ∈ segs) (m : MemOp) :
    Keeps (StoresAt regs segs fun s => s.loadStores (s.farPointer osz m).1) (jumpFarMem osz m) :=
  readThen_storesAt (value := fun s => s.farPointer osz m) (stores := fun p s => s.loadStores p.1)
    (readFarPointer_ok osz m) fun _ => jumpFar_storesAt hcs

theorem callFarMem_storesAt (hesp : .esp ∈ regs) (hcs : .cs ∈ segs) (m : MemOp) :
    Keeps (StoresAt regs segs fun s =>
      s.returnStores osz.bytes ++ (s.returnPushed osz.bytes).loadStores (s.farPointer osz m).1) (callFarMem osz m) :=
  readThen_storesAt (value := fun s => s.farPointer osz m)
    (stores := fun p s => s.returnStores osz.bytes ++ (s.returnPushed osz.bytes).loadStores p.1)
    (readFarPointer_ok osz m) fun _ => callFar_storesAt hesp hcs

/-! ### Returns (46_control_transfer R448 to R451, R470) -/

/-- Registers, segment registers and flags of a frame change, and no memory but by page walks. -/
def ChangesSegs (regs : List Reg) (segs : List SReg) (mask : Word) (s t : State) : Prop :=
  (⟨regs, segs, mask, []⟩ : Frame).keeps s t

theorem Changes.changesSegs (h : Changes regs mask s t) : ChangesSegs regs segs mask s t :=
  Frame.keeps_mono (h.keeps []) (List.Subset.refl _)

theorem changesSegs_preserved (regs : List Reg) (segs : List SReg) (mask : Word) :
    Preserved (ChangesSegs regs segs mask) where
  refl := fun s => ((changes_preserved _ _).refl s).changesSegs
  trans := fun _ _ _ h k => Frame.keeps_trans h k fun _ _ ha => ⟨ha, ha⟩

theorem changesSegs_mark : OfMark (ChangesSegs regs segs mask) := fun s a v had ha => (changes_mark s a v had ha).changesSegs

theorem changesSegs_draw : OfDraw (ChangesSegs regs segs mask) := fun s => (changes_draw s).changesSegs

theorem changesSegs_eip : OfEip (ChangesSegs regs segs mask) := fun s v => (changes_eip s v).changesSegs

theorem changesSegs_reg {r : Reg} (hr : r ∈ regs) : OfReg (ChangesSegs regs segs mask) r :=
  fun s v => (changes_reg hr s v).changesSegs

theorem changesSegs_seg {q : SReg} (hq : q ∈ segs) : OfSeg (ChangesSegs regs segs mask) q := by
  intro s g
  have ⟨⟨hregs, hsegs, _, hmem⟩, hrest⟩ := setSeg_storesAt (regs := regs) hq s g fun _ => []
  exact ⟨⟨hregs, hsegs, rfl, hmem⟩, hrest⟩

theorem changesSegs_popMask (s : State) (b c : Bool) (v : Word) :
    ChangesSegs regs segs 0x7FD7 s { s with eflags := maskedFlags (popMask b c) s.eflags v } :=
  (changes_flags (maskedFlags_within b c v) s).changesSegs

theorem framed_of_run_changesSegs (hi : exec i s = runInstr body s) (hk : Keeps (ChangesSegs regs segs mask) body) :
    Framed i s ⟨regs, segs, mask, []⟩ :=
  fun _ ht => (runInstr_next (changesSegs_preserved _ _ _) changesSegs_mark hk (hi ▸ ht)).symm

/-- A far return may load every segment register (46_control_transfer R450). -/
theorem retFar_changesAll (hesp : .esp ∈ regs) (hsegs : ∀ q, q ∈ segs) (osz : Size) (iw : Half) :
    Keeps (ChangesSegs regs segs mask) (retFar osz iw) :=
  retFar_keeps (changesSegs_preserved _ _ _) changesSegs_mark changesSegs_draw (changesSegs_reg hesp)
    (fun q => changesSegs_seg (hsegs q)) changesSegs_eip osz iw

theorem interruptReturn_changesAll (hesp : .esp ∈ regs) (hsegs : ∀ q, q ∈ segs) (osz : Size) :
    Keeps (ChangesSegs regs segs 0x7FD7) (interruptReturn osz) :=
  interruptReturn_keeps (changesSegs_preserved _ _ _) changesSegs_mark changesSegs_draw (changesSegs_reg hesp)
    (fun q => changesSegs_seg (hsegs q)) changesSegs_eip (fun s b c v => changesSegs_popMask s b c v) osz

/-- Where page walks write nothing the fetch changes nothing, so what the body does from this state is enough. -/
theorem framed_of_ran (hw : s.plainWalks = true) (hi : exec i s = runInstr body s)
    (h : ∀ t, body s = .ok ((), t) → ChangesSegs regs segs mask s t) : Framed i s ⟨regs, segs, mask, []⟩ := by
  refine fun t ht => (runInstr_ran (hi ▸ ht)).imp_right fun hran => ?_
  simp only [bind_run, touchFetch_run hw] at hran
  exact h t hran

theorem State.popped_level (s : State) (n : Nat) : (s.popped n).pe = s.pe ∧ (s.popped n).cpl = s.cpl :=
  ⟨(agree_popped s n).pe, by rw [State.cpl, (agree_popped s n).segs, State.cpl]⟩

section
variable (hesp : .esp ∈ regs)
include hesp

/-- Where page walks write nothing, what follows a pop starts at the state after a pop of the top of the stack. -/
theorem popThen_changesSegs (hw : s.plainWalks = true) {n : Nat} {f : Nat → Exec Unit} {a : Unit}
    (hf : f (s.top n) (s.popped n) = .ok (a, t) → ChangesSegs regs segs mask (s.popped n) t)
    (h : (pop n >>= f) s = .ok (a, t)) : ChangesSegs regs segs mask s t := by
  obtain ⟨v, _, hpop, hrest⟩ := bind_ok.1 h
  obtain ⟨u, -, rfl, hplain⟩ := pop_ok hpop
  obtain ⟨rfl, rfl⟩ := hplain hw
  have hpopped : ChangesSegs regs segs mask u (u.popped n) :=
    ((setStackPointer_changes hesp u _).anyMask mask).changesSegs
  exact (changesSegs_preserved _ _ _).trans _ _ _ hpopped (hf hrest)

end

section
variable (hesp : .esp ∈ regs) (hcs : .cs ∈ segs)
include hesp hcs

/-- A far return that does not leave for an outer level loads CS alone (46_control_transfer R448, R450). -/
theorem returnTo_changesSegs (hlevel : s.pe = false ∨ rpl sel ≤ s.cpl) {a : Unit}
    (h : returnTo osz sel off iw s = .ok (a, t)) : ChangesSegs regs segs mask s t := by
  have hR := changesSegs_preserved regs segs mask
  have hreal := realFarReturn_keeps hR (changesSegs_reg hesp) (changesSegs_seg hcs) changesSegs_eip osz sel off iw
  replace h : (if s.pe = true then farReturn osz sel off iw else realFarReturn osz sel off iw) s = .ok (a, t) := h
  cases hpe : s.pe with
  | false =>
    rw [if_neg (by simp [hpe])] at h
    exact hreal s a t h
  | true =>
    rw [if_pos hpe] at h
    obtain ⟨_, _, hget, h⟩ := bind_ok.1 h
    cases hget
    obtain ⟨_, _, hnull, h⟩ := bind_ok.1 h
    obtain ⟨-, rfl⟩ := check_ok.1 hnull
    obtain ⟨_, _, hinner, h⟩ := bind_ok.1 h
    obtain ⟨hinner, rfl⟩ := check_ok.1 hinner
    have hsame : rpl sel = State.cpl _ :=
      BitVec.le_antisymm (hlevel.resolve_left (by simp [hpe])) (of_decide_eq_true hinner)
    simp only [if_pos hsame] at h
    exact Keeps.bind hR (readDescriptor_keeps hR changesSegs_mark _ _ _) (fun _ => .bind hR (.check hR _ _) fun _ =>
      .bind hR (.check hR _ _) fun _ => .bind hR (.check hR _ _) fun _ => .bind hR (.check hR _ _) fun _ =>
      .bind hR (release_keeps (changesSegs_reg hesp) iw) fun _ =>
      .modify fun x => ofFar hR (changesSegs_seg hcs) changesSegs_eip x _ _) _ a t h

theorem retFar_changesSegs (hw : s.plainWalks = true)
    (hlevel : s.pe = false ∨ rpl (BitVec.ofNat 16 ((s.popped osz.bytes).top osz.bytes)) ≤ s.cpl) {a : Unit}
    (h : retFar osz iw s = .ok (a, t)) : ChangesSegs regs segs mask s t := by
  refine popThen_changesSegs hesp hw (popThen_changesSegs hesp ((s.popped_plainWalks _).trans hw) fun h => ?_) h
  refine returnTo_changesSegs hesp hcs ?_ h
  simp only [State.popped_level]
  exact hlevel

theorem interruptReturn_changesSegs (hw : s.plainWalks = true)
    (hlevel : s.pe = false ∨ rpl (BitVec.ofNat 16 ((s.popped osz.bytes).top osz.bytes)) ≤ s.cpl) {a : Unit}
    (h : interruptReturn osz s = .ok (a, t)) : ChangesSegs regs segs 0x7FD7 s t := by
  have hx := (s.popped_plainWalks osz.bytes).trans hw
  have hy := (State.popped_plainWalks _ osz.bytes).trans hx
  obtain ⟨_, _, hget, h⟩ := bind_ok.1 h
  cases hget
  obtain ⟨_, _, hnested, h⟩ := bind_ok.1 h
  obtain ⟨-, rfl⟩ := check_ok.1 hnested
  refine popThen_changesSegs hesp hw (popThen_changesSegs hesp hx (popThen_changesSegs hesp hy fun h => ?_)) h
  obtain ⟨_, _, hvm, h⟩ := bind_ok.1 h
  obtain ⟨-, rfl⟩ := check_ok.1 hvm
  obtain ⟨_, x, hreturn, hflags⟩ := bind_ok.1 h
  cases hflags
  refine (changesSegs_preserved _ _ _).trans _ x _ (returnTo_changesSegs hesp hcs ?_ hreturn) (changesSegs_popMask x _ _ _)
  simp only [State.popped_level]
  exact hlevel

end

/-! ### Software interrupts (46_control_transfer R460 to R462, 60_exceptions R501 to R505) -/

/-- From s to t only ESP, CS, SS, the flags that a delivery clears, the two fields it sets, EIP, the count of draws and memory
change (60_exceptions R506). -/
structure Delivers (s t : State) : Prop where
  regs : SameRegs s t [.esp]
  segs : SameSegs s t [.cs, .ss]
  flags : t.eflags &&& ~~~0x4300 = s.eflags &&& ~~~0x4300
  system : SameSystem s { t with activity := s.activity, tfAtStart := s.tfAtStart }
  events : t.events = s.events

theorem delivers_preserved : Preserved Delivers where
  refl := fun s => ⟨fun _ _ => rfl, fun _ _ => rfl, rfl, .refl s, rfl⟩
  trans := fun s t u h k => ⟨fun q hq => (k.regs q hq).trans (h.regs q hq), fun q hq => (k.segs q hq).trans (h.segs q hq),
    k.flags.trans h.flags, by
      have hsystem := h.system
      have ksystem := k.system
      simp only [SameSystem] at *
      simp [*], k.events.trans h.events⟩

theorem delivers_write : OfWrite Delivers := fun s _ _ _ => ⟨fun _ _ => rfl, fun _ _ => rfl, rfl, .refl s, rfl⟩

theorem delivers_draw : OfDraw Delivers := fun s => ⟨fun _ _ => rfl, fun _ _ => rfl, rfl, .refl s, rfl⟩

theorem delivers_esp : OfReg Delivers .esp := fun s v =>
  ⟨(changes_reg (List.mem_singleton.2 rfl) s v : Changes [.esp] 0 s _).regs, fun _ _ => rfl, rfl, .refl s, rfl⟩

theorem delivers_seg {q : SReg} (hq : q ∈ [SReg.cs, .ss]) : OfSeg Delivers q := fun s g =>
  ⟨fun _ _ => rfl, (setSeg_storesAt (regs := []) hq s g fun _ => []).1.2.1, rfl, .refl s, rfl⟩

/-- A delivery clears TF, IF and NT at most (60_exceptions R505). -/
theorem enterFlags_within {clear : Word → Word} (h : clear = realFlags ∨ ∃ g, clear = gateFlags g) :
    FlagsWithin 0x4300 clear := by
  have htf (g : Word → Word) (hg : FlagsWithin 0x4300 g) : FlagsWithin 0x4300 fun fl => setFlag .tf false (g fl) :=
    .set (by decide) _ hg
  have hnt : FlagsWithin 0x4300 (setFlag .nt false) := setFlag_within (by decide) false
  obtain rfl | ⟨g, rfl⟩ := h
  · exact .set (by decide) _ (htf _ (flagsWithin_id _))
  · intro fl
    unfold gateFlags
    split
    · exact FlagsWithin.set (by decide) (fun _ => false) (htf _ hnt) fl
    · exact htf _ hnt fl

theorem delivers_enter : OfEnter Delivers := fun s _ _ h =>
  ⟨fun _ _ => rfl, fun _ _ => rfl, enterFlags_within h s.eflags, .refl s, rfl⟩

theorem deliver_delivers (vec : Byte) (src : Source) (err : Option Half) (ret : Word) :
    Keeps Delivers (deliver vec src err ret) :=
  deliver_keeps delivers_preserved delivers_write delivers_draw delivers_esp (delivers_seg (by simp))
    (delivers_seg (by simp)) delivers_enter vec src err ret

/-- Pushes change no byte outside their slots (43_stack R330). -/
theorem pushes_untouched {n a : Nat} {vs : List Nat} (ha : Untouched (s.pushStores n vs) a) :
    Memory.read (s.pushes n vs).mem a = Memory.read s.mem a := by
  induction vs generalizing s with
  | nil => rfl
  | cons v vs ih =>
    obtain ⟨hslot, hslots⟩ := List.forall_mem_cons.1 ha
    rw [State.pushes, ih hslots, State.pushed, State.setStackPointer_mem]
    exact storeAt_untouched v (List.forall_mem_singleton.2 hslot)

theorem State.imaged_mem (s : State) (n : Nat) : (s.imaged n).mem = s.mem := by
  unfold State.imaged
  split <;> rfl

/-- A delivery changes no byte outside its frame (60_exceptions R504). -/
theorem delivered_untouched {vec : Byte} {src : Source} {err : Option Half} {ret : Word} {a : Nat}
    (ha : Untouched (s.deliveryStores vec src err ret) a) :
    Memory.read (s.delivered vec src err ret).mem a = Memory.read s.mem a := by
  unfold State.deliveryStores at ha
  unfold State.delivered
  split at ha
  · next hreal =>
    rw [if_pos hreal]
    exact pushes_untouched ha
  · next hprotected =>
    rw [if_neg hprotected]
    split at ha
    · next hsame =>
      rw [if_pos hsame]
      exact (pushes_untouched ha).trans (congrArg (Memory.read · a) (State.imaged_mem _ _))
    · next hinner =>
      rw [if_neg hinner]
      exact (pushes_untouched ha).trans
        (congrArg (Memory.read · a) ((State.imaged_mem _ _).trans (State.imaged_mem _ _)))

theorem framedSystem_softInt {vec : Byte}
    (hi : i = .intIb vec ∨ (i = .int3 ∧ vec = 3) ∨ (i = .into ∧ vec = 4 ∧ s.flag .of = true))
    (hguest : s.guestVector vec = true) :
    FramedSystem i s ⟨[.esp], [.cs, .ss], 0x4300, s.deliveryStores vec .softInt none s.nextEip⟩
      (fun t => { t with activity := s.activity, tfAtStart := s.tfAtStart }) := by
  obtain ⟨body, hexec, hbody⟩ := exec_softInt hi
  refine fun t ht => (runInstr_ran (hexec ▸ ht)).imp_right fun hran => ?_
  obtain ⟨_, u, hfetch, hrun⟩ := bind_ok.1 hran
  obtain ⟨m, rfl⟩ : ∃ m, u = { s with mem := m } :=
    touchFetch_keeps (R := fun s t => ∃ m, t = { s with mem := m })
      ⟨fun s => ⟨s.mem, rfl⟩, fun _ _ _ h k => by obtain ⟨_, rfl⟩ := h; obtain ⟨m, rfl⟩ := k; exact ⟨m, rfl⟩⟩
      (fun _ _ _ _ _ => ⟨_, rfl⟩) s _ u hfetch
  rw [hbody { s with mem := m } rfl, softInt_guest (s := { s with mem := m }) hguest] at hrun
  obtain ⟨hregs, hsegs, hflags, hsystem, hevents⟩ := deliver_delivers _ _ _ _ _ _ _ hrun
  refine ⟨⟨hregs, hsegs, hflags, fun hw a ha => ?_⟩, hsystem, hevents⟩
  have hm : { s with mem := m } = s := by
    rw [touchFetch_run hw] at hfetch
    exact (congrArg Prod.snd (Except.ok.inj hfetch)).symm
  rw [hm] at hrun
  obtain ⟨-, rfl⟩ := (deliver_iff hw).1 hrun
  exact delivered_untouched ha

/-! ### The obligation -/

/-- Settles O59: near transfers are frames of EIP, the count and the stack; a far transfer loads CS between what it pushes and
the mark of its target, a return loads what it pops, and a software interrupt is a delivery. -/
theorem controlFrames : Obligations.ControlFrames := by
  unfold Obligations.ControlFrames
  rintro s cc rel rz rm iw m _ sel off _ _ _ rfl hloc rfl
  obtain ⟨rfl, rfl⟩ := Prod.mk.inj hloc
  have hR := changes_preserved
  have hesp : Reg.esp ∈ [Reg.esp] := List.mem_singleton.2 rfl
  have hcs : SReg.cs ∈ [SReg.cs] := List.mem_singleton.2 rfl
  have hall (q : SReg) : q ∈ [SReg.es, .cs, .ss, .ds, .fs, .gs] := by cases q <;> decide
  simp only [List.forall_mem_cons, List.not_mem_nil, false_implies, implies_true, and_true]
  refine ⟨⟨?_, ?_, ?_, ?_, ?_, ?_⟩, ?_, ⟨?_, ?_⟩, ⟨?_, ?_⟩, ?_, ?_, fun i q hi => ?_, ⟨?_, ?_⟩, ?_,
    fun hw hlevel => ⟨⟨?_, ?_⟩, ?_⟩, fun i vec => framedSystem_softInt⟩
  · exact framed_of_run rfl (jumpRel_keeps (hR _ _) changes_eip _ _)
  · exact framed_of_run rfl (jumpRel_keeps (hR _ _) changes_eip _ _)
  · exact framed_of_run rfl (jumpRM_keeps (hR _ _) changes_mark changes_eip _ _)
  · exact framed_of_run rfl (jumpCond_keeps (hR _ _) changes_eip _ _ _)
  · exact framed_of_run rfl (jumpCond_keeps (hR _ _) changes_eip _ _ _)
  · exact framed_of_run rfl (jumpCountZero_keeps (hR _ _) changes_eip _ _)
  · have hloop (zf : State → Bool) := loopBranch_keeps (hR [.ecx] 0) (changes_reg (List.mem_singleton.2 rfl)) changes_eip
      zf s.ctx.osz (rel.signExtend 32)
    exact ⟨framed_of_run rfl (hloop _), framed_of_run rfl (hloop _), framed_of_run rfl (hloop _)⟩
  · exact framed_of_run_storesAt rfl (callRel_storesAt hesp _)
  · exact framed_of_run_storesAt rfl (callRM_storesAt hesp _)
  · exact framed_of_run rfl (retNear_keeps (hR _ _) changes_mark (changes_reg hesp) changes_eip _ _)
  · exact framed_of_run rfl (retNear_keeps (hR _ _) changes_mark (changes_reg hesp) changes_eip _ _)
  · exact framed_of_run_storesAt rfl (jumpFar_storesAt hcs)
  · exact framed_of_run_storesAt rfl (jumpFarMem_storesAt hcs m)
  · simp only [List.mem_cons, Prod.mk.injEq, List.not_mem_nil, or_false] at hi
    obtain ⟨rfl, rfl⟩ | ⟨rfl, rfl⟩ := hi
    · exact framed_of_run_storesAt rfl (callFar_storesAt hesp hcs)
    · exact framed_of_run_storesAt rfl (callFarMem_storesAt hesp hcs m)
  · exact framed_of_run_changesSegs rfl (retFar_changesAll hesp hall _ _)
  · exact framed_of_run_changesSegs rfl (retFar_changesAll hesp hall _ _)
  · exact framed_of_run_changesSegs rfl (interruptReturn_changesAll hesp hall _)
  · exact framed_of_ran hw rfl fun _ => retFar_changesSegs hesp hcs hw hlevel
  · exact framed_of_ran hw rfl fun _ => retFar_changesSegs hesp hcs hw hlevel
  · exact framed_of_ran hw rfl fun _ => interruptReturn_changesSegs hesp hcs hw hlevel

end Sys2Proof.Machine
end

section
/-! PROOF. Delivering an event (60_exceptions R500 to R508): the depth at which Deliver runs does not matter for it, so an event
that can be delivered is delivered, in the place of another one too; and a vector beyond the table limit stops a delivery. -/

namespace Sys2Proof.Machine

variable {s u : State} {d : Nat} {vec : Byte} {src : Source} {err : Option Half} {ret : Word}

/-! ### The depth of a delivery (10_state R55, 60_exceptions R508; log 14) -/

/-- The state at another depth of delivery. -/
def State.atDepth (s : State) (d : Nat) : State :=
  { s with depth := d }

theorem agree_atDepth (s : State) (d : Nat) : Agree s (s.atDepth d) := ⟨rfl, rfl, rfl, rfl, rfl⟩

@[simp] theorem State.atDepth_pe : (s.atDepth d).pe = s.pe := rfl

@[simp] theorem State.atDepth_plainWalks : (s.atDepth d).plainWalks = s.plainWalks := rfl

@[simp] theorem State.atDepth_backed (acc : Access) (user : Bool) (lin : Word) (n : Nat) :
    (s.atDepth d).backed acc user lin n = s.backed acc user lin n :=
  have h := agree_atDepth s d
  backed_agree h.cr0 h.cr3 h.mem h.params acc user lin n

@[simp] theorem State.atDepth_valueAt (user : Bool) (lin : Word) (n : Nat) :
    (s.atDepth d).valueAt user lin n = s.valueAt user lin n :=
  have h := agree_atDepth s d
  valueAt_agree h.cr0 h.cr3 h.mem h.params user lin n

/-! What a delivery reads: the tables, the gate and its handler, the stack of an inner level. -/

@[simp] theorem State.atDepth_vectorEntry : (s.atDepth d).vectorEntry vec = s.vectorEntry vec :=
  congrArg (BitVec.ofNat 32) (State.atDepth_valueAt ..)

@[simp] theorem State.atDepth_gate : (s.atDepth d).gate vec = s.gate vec :=
  congrArg (BitVec.ofNat 64) (State.atDepth_valueAt ..)

@[simp] theorem State.atDepth_desc (sel : Half) : (s.atDepth d).desc sel = s.desc sel :=
  congrArg (BitVec.ofNat 64) (State.atDepth_valueAt ..)

@[simp] theorem State.atDepth_hasDesc (sel : Half) : (s.atDepth d).hasDesc sel = s.hasDesc sel :=
  congrArg (_ && _ && ·) (State.atDepth_backed ..)

@[simp] theorem State.atDepth_tssPointer (lvl : BitVec 2) : (s.atDepth d).tssPointer lvl = s.tssPointer lvl :=
  congrArg (BitVec.ofNat 32) (State.atDepth_valueAt ..)

@[simp] theorem State.atDepth_tssStackSel (lvl : BitVec 2) : (s.atDepth d).tssStackSel lvl = s.tssStackSel lvl :=
  congrArg (BitVec.ofNat 16) (State.atDepth_valueAt ..)

@[simp] theorem State.atDepth_gateBytes : (s.atDepth d).gateBytes vec = s.gateBytes vec := by
  simp only [State.gateBytes, State.atDepth_gate]

@[simp] theorem State.atDepth_handlerCs (lvl : BitVec 2) : (s.atDepth d).handlerCs vec lvl = s.handlerCs vec lvl := by
  simp only [State.handlerCs, State.atDepth_gate, State.atDepth_desc]

@[simp] theorem State.atDepth_gateOk : (s.atDepth d).gateOk vec src = s.gateOk vec src := by
  simp only [State.gateOk, State.atDepth_backed, State.atDepth_gate]
  rfl

@[simp] theorem State.atDepth_handlerOk : (s.atDepth d).handlerOk vec = s.handlerOk vec := by
  simp only [State.handlerOk, State.atDepth_hasDesc, State.atDepth_desc, State.atDepth_gate]
  rfl

@[simp] theorem State.atDepth_sameLevel : (s.atDepth d).sameLevel vec = s.sameLevel vec := by
  simp only [State.sameLevel, State.atDepth_desc, State.atDepth_gate]
  rfl

@[simp] theorem State.atDepth_canSwitch (lvl : BitVec 2) : (s.atDepth d).canSwitch lvl = s.canSwitch lvl := by
  simp only [State.canSwitch, State.atDepth_backed, State.atDepth_hasDesc, State.atDepth_desc,
    State.atDepth_tssStackSel]
  rfl

/-! What a delivery writes: pushes and the draws for selector images keep the depth. -/

theorem State.atDepth_storeAt (user : Bool) (lin : Word) (n v : Nat) :
    (s.atDepth d).storeAt user lin n v = (s.storeAt user lin n v).atDepth d := by
  have hphys : (s.atDepth d).physAll .write user (addrs lin n) = s.physAll .write user (addrs lin n) :=
    physAll_agree (s := s) (t := s.atDepth d) rfl rfl rfl rfl _ _ _
  rw [State.storeAt, State.storeAt, hphys]
  split <;> rfl

theorem State.atDepth_setStackPointer (v : Word) :
    (s.atDepth d).setStackPointer v = (s.setStackPointer v).atDepth d := by
  rw [State.setStackPointer, State.setStackPointer, apply_ite (State.atDepth · d)]
  rfl

@[simp] theorem State.atDepth_pushed (n v : Nat) : (s.atDepth d).pushed n v = (s.pushed n v).atDepth d := by
  let p := s.movedPointer (-BitVec.ofNat 32 n)
  exact (congrArg (·.setStackPointer p) (State.atDepth_storeAt s.user (s.linear .ss p) n v)).trans
    (State.atDepth_setStackPointer p)

@[simp] theorem State.atDepth_canPush (n : Nat) : (s.atDepth d).canPush n = s.canPush n :=
  (agree_atDepth s d).writable ..

@[simp] theorem State.atDepth_pushes (n : Nat) (vs : List Nat) :
    (s.atDepth d).pushes n vs = (s.pushes n vs).atDepth d := by
  induction vs generalizing s with
  | nil => rfl
  | cons v vs ih => simp only [State.pushes, State.atDepth_pushed, ih]

@[simp] theorem State.atDepth_canPushes (n : Nat) (vs : List Nat) :
    (s.atDepth d).canPushes n vs = s.canPushes n vs := by
  induction vs generalizing s with
  | nil => rfl
  | cons v vs ih => simp only [State.canPushes, State.atDepth_canPush, State.atDepth_pushed, ih]

@[simp] theorem State.atDepth_imaged (n : Nat) : (s.atDepth d).imaged n = (s.imaged n).atDepth d := by
  rw [State.imaged, State.imaged, apply_ite (State.atDepth · d)]
  rfl

@[simp] theorem State.atDepth_levelEntered : (s.atDepth d).levelEntered vec = (s.levelEntered vec).atDepth d := by
  simp only [State.levelEntered, State.atDepth_handlerCs, State.atDepth_gateBytes, ← State.atDepth_imaged]
  rfl

@[simp] theorem State.atDepth_innerEntered : (s.atDepth d).innerEntered vec = (s.innerEntered vec).atDepth d := by
  simp only [State.innerEntered, State.atDepth_handlerCs, State.atDepth_gateBytes, State.atDepth_gate,
    State.atDepth_desc, State.atDepth_tssStackSel, State.atDepth_tssPointer, ← State.atDepth_imaged]
  rfl

@[simp] theorem State.atDepth_vectorFrame : (s.atDepth d).vectorFrame ret = s.vectorFrame ret := rfl

@[simp] theorem State.atDepth_gateFrame :
    (s.atDepth d).gateFrame (u.atDepth d) vec src err ret = s.gateFrame u vec src err ret := by
  simp only [State.gateFrame, State.atDepth_gateBytes]
  rfl

@[simp] theorem State.atDepth_innerFrame :
    (s.atDepth d).innerFrame vec src err ret = s.innerFrame vec src err ret := by
  simp only [State.innerFrame, State.atDepth_gateBytes, State.atDepth_imaged, State.atDepth_gateFrame]
  rfl

@[simp] theorem State.atDepth_atHandler :
    (s.atDepth d).atHandler (u.atDepth d) vec = (s.atHandler u vec).atDepth d := by
  simp only [State.atHandler, State.atDepth_gate]
  rfl

@[simp] theorem State.atDepth_canVector : (s.atDepth d).canVector vec ret = s.canVector vec ret := by
  simp only [State.canVector, State.atDepth_backed, State.atDepth_canPushes, State.atDepth_vectorEntry,
    State.atDepth_vectorFrame]
  rfl

@[simp] theorem State.atDepth_vectored : (s.atDepth d).vectored vec ret = (s.vectored vec ret).atDepth d := by
  simp only [State.vectored, State.atDepth_pushes, State.atDepth_vectorEntry, State.atDepth_vectorFrame]
  rfl

theorem State.atDepth_canDeliver : (s.atDepth d).canDeliver vec src err ret = s.canDeliver vec src err ret := by
  simp [State.canDeliver, State.canGate, State.canGateInner]

theorem State.atDepth_delivered :
    (s.atDepth d).delivered vec src err ret = (s.delivered vec src err ret).atDepth d := by
  simp [State.delivered, State.gated, State.gatedInner, apply_ite (State.atDepth · d)]

/-- At every depth an event that can be delivered is delivered. -/
theorem deliver_atDepth (h : s.canDeliver vec src err ret = true) (d : Nat) :
    deliver vec src err ret { s with depth := d } = .ok ((), (s.delivered vec src err ret).atDepth d) := by
  have hw : s.plainWalks = true := (Bool.and_eq_true_iff.1 h).1
  exact (deliver_iff (s := s.atDepth d) hw).2 ⟨State.atDepth_canDeliver.trans h, State.atDepth_delivered.symm⟩

/-! ### Events that are delivered (60_exceptions R500 to R502) -/

theorem deliverEvent_run (h : s.canDeliver vec src err ret = true) :
    deliverEvent vec src err ret s = .next { s.delivered vec src err ret with depth := 0 } := by
  rw [deliverEvent, deliver_atDepth h]
  rfl

/-- A fault in the place of the event that raised it is delivered like any other. -/
theorem deliverNested_run {r : Raised} (hcr2 : r.cr2 = none) (h : s.canDeliver r.vec .fault r.err ret = true) :
    deliverNested r ret s = .next { s.delivered r.vec .fault r.err ret with depth := 0 } := by
  simp only [deliverNested, hcr2, State.withCr2, deliver_atDepth h]
  rfl

theorem State.canDeliver_real (hw : s.plainWalks = true) (h : s.canVector vec ret = true) :
    s.canDeliver vec src err ret = true := by
  rw [State.canDeliver, hw, h, Bool.true_or, Bool.true_or, Bool.and_self]

theorem State.canDeliver_gate (hw : s.plainWalks = true) (h : s.canGate vec src err ret = true) :
    s.canDeliver vec src err ret = true := by
  rw [State.canDeliver, hw, h, Bool.or_true, Bool.true_or, Bool.and_self]

theorem State.canDeliver_inner (hw : s.plainWalks = true) (h : s.canGateInner vec src err ret = true) :
    s.canDeliver vec src err ret = true := by
  rw [State.canDeliver, hw, h, Bool.or_true, Bool.and_self]

theorem State.delivered_real (h : s.canVector vec ret = true) : s.delivered vec src err ret = s.vectored vec ret := by
  simp only [State.canVector, Bool.and_eq_true] at h
  obtain ⟨⟨⟨⟨hpe, -⟩, -⟩, -⟩, -⟩ := h
  exact if_pos hpe

theorem State.delivered_gate (h : s.canGate vec src err ret = true) :
    s.delivered vec src err ret = s.gated vec src err ret := by
  simp only [State.canGate, Bool.and_eq_true] at h
  obtain ⟨⟨⟨⟨hpe, -⟩, -⟩, hlevel⟩, -⟩ := h
  rw [State.delivered, hpe, hlevel]
  rfl

theorem State.delivered_inner (h : s.canGateInner vec src err ret = true) :
    s.delivered vec src err ret = s.gatedInner vec src err ret := by
  simp only [State.canGateInner, Bool.and_eq_true, Bool.not_eq_true'] at h
  obtain ⟨⟨⟨⟨⟨hpe, -⟩, -⟩, hlevel⟩, -⟩, -⟩ := h
  rw [State.delivered, hpe, hlevel]
  rfl

/-- Settles O36: a real-mode delivery whose checks pass is delivered at depth 1. -/
theorem realModeDelivery : Obligations.RealModeDelivery := by
  unfold Obligations.RealModeDelivery
  intro s vec src err ret hw h
  rw [deliverEvent_run (State.canDeliver_real hw h), State.delivered_real h]

/-- Settles O37: a gate delivery whose checks pass is delivered at depth 1, to the level of its handler. -/
theorem gateDelivery : Obligations.GateDelivery := by
  unfold Obligations.GateDelivery
  refine fun s vec src err ret hw => ⟨fun h => ?_, fun h => ?_⟩
  · rw [deliverEvent_run (State.canDeliver_gate hw h), State.delivered_gate h]
  · rw [deliverEvent_run (State.canDeliver_inner hw h), State.delivered_inner h]

/-! ### A vector beyond the table limit (60_exceptions R501, R502, R508) -/

/-- The entry of a vector, in the size of the mode, ends beyond the limit of IDTR (60_exceptions R501, R502). -/
def State.beyondTable (s : State) (vec : Byte) : Prop :=
  s.idtr.limit.toNat < if s.pe then vec.toNat * 8 + 7 else vec.toNat * 4 + 3

/-- The error code for that: 0 in real mode, the vector in IDT format in protected mode (60_exceptions R483, R501, R502). -/
def State.limitError (s : State) (vec : Byte) (src : Source) : Half :=
  if s.pe then idtError vec (src != .softInt) else 0

theorem deliver_beyondTable (h : s.beyondTable vec) :
    deliver vec src err ret s = .error (protection (s.limitError vec src)) := by
  simp only [deliver, bind_run, get_run, State.limitError]
  rw [State.beyondTable] at h
  cases hpe : s.pe with
  | true =>
    rw [hpe, if_pos rfl] at h
    simp only [deliverProtected, readGate, bind_run, get_run, decide_eq_false (Nat.not_le.2 h), check_false, if_true]
  | false =>
    rw [hpe, if_neg Bool.false_ne_true] at h
    simp only [deliverReal, bind_run, get_run, decide_eq_false (Nat.not_le.2 h), check_false, Bool.false_eq_true, if_false]

theorem deliverEvent_beyondTable (h : s.beyondTable vec) :
    deliverEvent vec src err ret s = deliverNested ⟨13, some (s.limitError vec src), none⟩ ret s := by
  have hstop : deliver vec src err ret { s with depth := 1 } = .error (protection (s.limitError vec src)) :=
    deliver_beyondTable (s := s.atDepth 1) h
  rw [deliverEvent, hstop]
  rfl

/-- A second fault is a double fault (60_exceptions R508). -/
theorem deliverNested_beyondTable {r : Raised} (hcr2 : r.cr2 = none) (h : s.beyondTable r.vec) :
    deliverNested r ret s = .fault (.doubleFault { s with depth := 0 }) := by
  have hstop : deliver r.vec .fault r.err ret { s with depth := 2 } = .error (protection (s.limitError r.vec .fault)) :=
    deliver_beyondTable (s := s.atDepth 2) h
  simp only [deliverNested, hcr2, State.withCr2, hstop]
  rfl

/-- Settles O38: beyond the limit a delivery raises #GP with the error code of the mode; that is delivered in its place, or
lies beyond the limit itself. -/
theorem nestedDelivery : Obligations.NestedDelivery := by
  unfold Obligations.NestedDelivery
  intro s vec src err ret e hw he hlimit
  have hcode : e = s.limitError vec src := by
    rw [he, State.limitError, idtError]
    cases src <;> rfl
  rw [deliverEvent_beyondTable hlimit, ← hcode]
  refine ⟨fun h => deliverNested_run (r := ⟨13, some e, none⟩) rfl h, fun h => ?_⟩
  have hfault : s.beyondTable 13 := h
  exact deliverNested_beyondTable (r := ⟨13, some e, none⟩) rfl hfault

end Sys2Proof.Machine
end

section
/-! PROOF. One iteration between two boundaries (60_exceptions R496, R515, R520 to R526): an instruction with its single-step
trap, and what happens where nothing is fetched. -/

namespace Sys2Proof.Machine

variable {s t : State} {vec : Byte} {src : Source} {err : Option Half} {ret : Word}

/-! ### A delivery clears the single-step latch (60_exceptions R515; log 13) -/

/-- Wherever it starts, a computation that completes leaves the single-step latch clear. -/
def ClearsLatch {α : Type} (x : Exec α) : Prop :=
  ∀ s a t, x s = .ok (a, t) → t.tfAtStart = false

theorem ClearsLatch.after {α β : Type} {x : Exec α} {f : α → Exec β} (hf : ∀ a, ClearsLatch (f a)) :
    ClearsLatch (x >>= f) := by
  intro s b t h
  obtain ⟨a, u, -, hrun⟩ := bind_ok.1 h
  exact hf a u b t hrun

theorem enterHandler_clearsLatch (eip : Word) (clear : Word → Word) : ClearsLatch (enterHandler eip clear) := by
  intro s a t h
  cases h
  rfl

theorem deliverReal_clearsLatch (vec : Byte) (ret : Word) : ClearsLatch (deliverReal vec ret) :=
  .after fun _ => .after fun _ => .after fun _ => .after fun _ => .after fun _ => .after fun _ => .after fun _ =>
    .after fun _ => enterHandler_clearsLatch _ _

theorem deliverProtected_clearsLatch (vec : Byte) (src : Source) (err : Option Half) (ret : Word) :
    ClearsLatch (deliverProtected vec src err ret) :=
  .after fun _ => .after fun _ => .after fun _ => .after fun _ => .after fun _ => .after fun _ => .after fun _ =>
    .after fun _ => .after fun _ => enterHandler_clearsLatch _ _

theorem deliver_clearsLatch (vec : Byte) (src : Source) (err : Option Half) (ret : Word) :
    ClearsLatch (deliver vec src err ret) := by
  refine .after fun s => ?_
  split
  · exact deliverProtected_clearsLatch vec src err ret
  · exact deliverReal_clearsLatch vec ret

/-- A whole delivery, nested or not, leaves the latch clear. -/
theorem deliverEvent_clearsLatch (h : deliverEvent vec src err ret s = .next t) : t.tfAtStart = false := by
  have hrun {v x e u y a} (hx : deliver v x e ret u = .ok (a, y)) : ({ y with depth := 0 } : State).tfAtStart = false :=
    deliver_clearsLatch v x e ret u a y hx
  simp only [deliverEvent] at h
  split at h
  · next hx => cases h; exact hrun hx
  · next a _ => cases a <;> cases h
  · simp only [deliverNested] at h
    split at h
    · next hx => cases h; exact hrun hx
    · next a _ => cases a <;> cases h
    · cases h

/-- No single-step trap follows a delivery (60_exceptions R515). -/
theorem trapStep_deliverEvent (vec : Byte) (src : Source) (err : Option Half) (ret : Word) (s : State) :
    trapStep (deliverEvent vec src err ret s) = deliverEvent vec src err ret s := by
  cases h : deliverEvent vec src err ret s with
  | next t => simp only [trapStep, deliverEvent_clearsLatch h, Bool.false_eq_true, if_false]
  | fault f => rfl
  | refused r => rfl

/-! ### A boundary that fetches (60_exceptions R496, R510, R515) -/

/-- The bytes at CS:EIP are read from segments, control registers, parameters and memory. -/
theorem State.fetched_agree (h : Agree s t) (heip : t.eip = s.eip) : t.fetched = s.fetched := by
  simp only [State.fetched, heip, fetchAvail_agree h]

theorem State.fetched_latched (s : State) (b : Bool) : State.fetched { s with tfAtStart := b } = s.fetched :=
  State.fetched_agree ⟨rfl, rfl, rfl, rfl, rfl⟩ rfl

theorem State.decoded_latched (s : State) (b : Bool) : State.decoded { s with tfAtStart := b } = s.decoded :=
  State.decoded_agree ⟨rfl, rfl, rfl, rfl, rfl⟩ rfl

theorem runStep_of_reject {why : Reject} (h : s.decoded = .reject why) :
    runStep s = .refused (.unimplemented (.encoding why) { s with tfAtStart := s.flag .tf }) := by
  simp only [runStep, instrStep, State.decoded_latched, h]
  rfl

/-- A fetch fault is an exception of the instruction, and no trap follows its delivery. -/
theorem runStep_of_short {r : Raised} (h : s.decoded = .short) (hstop : s.fetched.2 = .raise r) :
    runStep s = deliverEvent r.vec .fault r.err s.eip (({ s with tfAtStart := s.flag .tf } : State).withCr2 r.cr2) := by
  simp only [runStep, instrStep, State.decoded_latched, h, State.fetched_latched, hstop, settle]
  exact trapStep_deliverEvent _ _ _ _ _

/-- Settles O27: the step is closed over what the fetched bytes decode to, are rejected for or stop with. -/
theorem stepRunsDecoded : Obligations.StepRunsDecoded := by
  unfold Obligations.StepRunsDecoded
  intro s hs
  rw [step_of_fetches hs]
  refine ⟨fun c i rest hd => ?_, fun why hd => ?_, fun r hd hstop => ?_⟩
  · rw [runStep_of_decoded hd]
  · rw [runStep_of_reject hd]
    rfl
  · rw [runStep_of_short hd hstop]

/-- Settles O29: the trap goes by the latch, which holds TF as it was at the start of an instruction that delivered
nothing. -/
theorem singleStepTraps : Obligations.SingleStepTraps := by
  unfold Obligations.SingleStepTraps
  intro s c i rest t hs hd hrun hlatch
  rw [step_of_fetches hs, runStep_of_decoded hd, hrun, trapStep, hlatch]
  refine ⟨fun htf => ?_, fun htf h => ?_⟩
  · rw [htf]
    rfl
  · rw [htf, if_pos rfl, deliverEvent_run h]
    rfl

/-! ### A boundary that fetches nothing (60_exceptions R496, R520 to R526) -/

theorem takeInterrupt_of_emulated {v : Byte} {rest : List Byte} (h : s.params.emulatedVectors.contains v = true) :
    takeInterrupt v rest s =
      .next (({ s with pendingIrq := rest, activity := .running } : State).hostCall (.interrupt v)) :=
  if_pos h

theorem takeInterrupt_of_guest {v : Byte} {rest : List Byte} (h : s.params.emulatedVectors.contains v = false) :
    takeInterrupt v rest s =
      deliverEvent v .external none s.eip { s with pendingIrq := rest, activity := .running } :=
  if_neg (Bool.eq_false_iff.1 h)

theorem step_of_halted (hf : s.fatal = none) (hi : s.flag .intf = false ∨ s.pendingIrq = [])
    (ha : s.activity = .halted) : step s = .next s := by
  rw [step_of_noInterrupt hf hi, if_pos ha]

/-- Settles O28: the step that each kind of boundary takes is closed over its own outcome. -/
theorem boundaryWithoutFetch : Obligations.BoundaryWithoutFetch := by
  unfold Obligations.BoundaryWithoutFetch
  refine ⟨fun s r => step_of_latched, ?interrupt, fun s => step_of_halted, ?callback,
    fun s v => ⟨rfl, fun hi hf ha => step_of_halted (s := s.raiseInterrupt v) hf (.inl hi) ha⟩⟩
  case interrupt =>
    rintro s v rest x hf hi hq rfl
    rw [step_of_interrupt hf hi hq]
    refine ⟨fun hhost => ?_, fun hguest h => ?_⟩
    · rw [takeInterrupt_of_emulated hhost]
      rfl
    · rw [takeInterrupt_of_guest hguest, deliverEvent_run h]
      rfl
  case callback =>
    rintro s p x hw hf hi ha hb hp hslot rfl
    rw [step_of_running hf hi ha, executeStep_of_slot hw hb hp hslot]
    rfl

end Sys2Proof.Machine
end

section
/-! PROOF. Pushes that are popped again in real mode (43_stack R330, R331): a state is on the stack of another where its stack
pointer is moved by a distance; the slots at even distances lie apart, so each pushed word is read back, and the registers are
back where the distance is 0. -/

namespace Sys2Proof.Machine

variable {s t u : State} {d e : Word} {n : Nat}

/-! ### The distance of the stack pointer -/

/-- The state t is on the stack of s, with the stack pointer moved by d and no other register changed. -/
structure StackMoved (d : Word) (s t : State) : Prop where
  cr0 : t.cr0 = s.cr0
  params : t.params = s.params
  ss : t.segs.ss = s.segs.ss
  regs : t.regs = (s.setStackPointer (s.movedPointer d)).regs

/-- A second write of the stack pointer overwrites the first. -/
theorem State.setStackPointer_regs_again (hss : t.segs.ss = s.segs.ss) {w : Word}
    (hregs : t.regs = (s.setStackPointer w).regs) (v : Word) :
    (t.setStackPointer v).regs = (s.setStackPointer v).regs := by
  simp only [State.setStackPointer, hss] at hregs ⊢
  split
  · next h =>
    rw [if_pos h] at hregs
    rw [State.setReg_regs, hregs]
    rfl
  · next h =>
    rw [if_neg h] at hregs
    have hhigh : t.regs.esp.extractLsb' 16 16 = s.regs.esp.extractLsb' 16 16 := by
      rw [hregs]
      exact putLow16_high _ _
    rw [State.setReg_regs, putLow16, hhigh, hregs]
    rfl

theorem neg_ofNat_mul_succ (n k : Nat) :
    -BitVec.ofNat 32 n + -BitVec.ofNat 32 (n * k) = -BitVec.ofNat 32 (n * (k + 1)) := by
  rw [Nat.mul_succ, BitVec.ofNat_add, BitVec.neg_add, BitVec.sub_eq_add_neg, BitVec.add_comm]

namespace StackMoved

theorem refl (s : State) : StackMoved 0 s s :=
  ⟨rfl, rfl, rfl, (congrArg State.regs s.released_zero).symm⟩

theorem pointer (h : StackMoved d s t) : t.stackPointer = s.movedPointer d := by
  have hpointer := s.stackPointer_moved d
  rw [State.stackPointer_eq, State.setStackPointer_segs] at hpointer
  rw [State.stackPointer_eq, h.ss, h.regs, hpointer]

theorem movedPointer (h : StackMoved d s t) (e : Word) : t.movedPointer e = s.movedPointer (d + e) := by
  have hmoved : t.movedPointer e = stackWord t.segs.ss.ar.db (t.stackPointer + e) := rfl
  rw [hmoved, h.ss, h.pointer, State.movedPointer_eq, stackWord_add, State.movedPointer_eq, BitVec.add_assoc]

theorem trans (h : StackMoved d s t) (k : StackMoved e t u) : StackMoved (d + e) s u where
  cr0 := k.cr0.trans h.cr0
  params := k.params.trans h.params
  ss := k.ss.trans h.ss
  regs := by rw [k.regs, State.setStackPointer_regs_again h.ss h.regs, h.movedPointer]

theorem pushed (hp : s.paging = false) (n v : Nat) : StackMoved (-BitVec.ofNat 32 n) s (s.pushed n v) := by
  rw [pushed_unpaged hp]
  exact ⟨s.setStackPointer_cr0 _, s.setStackPointer_params _, congrArg _ (s.setStackPointer_segs _), rfl⟩

theorem pushes (hp : s.paging = false) (n : Nat) (vs : List Nat) :
    StackMoved (-BitVec.ofNat 32 (n * vs.length)) s (s.pushes n vs) := by
  induction vs generalizing s with
  | nil => simpa [State.pushes] using StackMoved.refl s
  | cons v vs ih =>
    have hmoved := (StackMoved.pushed hp n v).trans (ih (pushed_paging hp v))
    rwa [neg_ofNat_mul_succ] at hmoved

theorem popped (s : State) (n : Nat) : StackMoved (BitVec.ofNat 32 n) s (s.popped n) :=
  ⟨s.setStackPointer_cr0 _, s.setStackPointer_params _, congrArg _ (s.setStackPointer_segs _), rfl⟩

/-- A pop takes back the last push. -/
theorem popBack {k : Nat} (h : StackMoved (-BitVec.ofNat 32 (n * (k + 1))) s t) :
    StackMoved (-BitVec.ofNat 32 (n * k)) s (t.popped n) := by
  have hback : -BitVec.ofNat 32 (n * (k + 1)) + BitVec.ofNat 32 n = -BitVec.ofNat 32 (n * k) := by
    rw [← neg_ofNat_mul_succ]
    exact neg_add_cancel_comm _ _
  exact hback ▸ h.trans (StackMoved.popped t n)

theorem regs_back (h : StackMoved (-BitVec.ofNat 32 0) s t) : t.regs = s.regs :=
  h.regs.trans (congrArg State.regs s.released_zero)

end StackMoved

/-! ### Slots, by their distance from the stack pointer -/

/-- The addresses of a slot of n bytes, at a distance from the stack pointer. -/
def State.slot (s : State) (d : Word) (n : Nat) : List Word :=
  addrs (s.linear .ss (s.movedPointer d)) n

/-- In real mode that slot can be pushed to and popped from (20_memory R82, R102). -/
def State.hasSlot (s : State) (d : Word) (n : Nat) : Bool :=
  s.segs.ss.inBounds (s.movedPointer d) n && s.inRam (s.slot d n)

namespace StackMoved

variable (h : StackMoved d s t)
include h

theorem slot (e : Word) (n : Nat) : t.slot e n = s.slot (d + e) n := by
  have hbase : (t.seg .ss).base = (s.seg .ss).base := congrArg Segment.base h.ss
  simp only [State.slot, State.linear, hbase, h.movedPointer]

theorem hasSlot (e : Word) (n : Nat) : t.hasSlot e n = s.hasSlot (d + e) n := by
  simp only [State.hasSlot, State.inRam, h.ss, h.params, h.slot, h.movedPointer]

end StackMoved

theorem State.movedPointer_zero (s : State) : s.movedPointer 0 = s.stackPointer := by
  rw [State.movedPointer_eq, State.stackPointer_eq, BitVec.ofNat_eq_ofNat, BitVec.add_zero]

section
variable (hpe : s.pe = false)
include hpe

theorem State.paging_of_real : s.paging = false := by
  rw [State.pe] at hpe
  rw [State.paging, hpe, Bool.false_and]

theorem State.canPush_real (n : Nat) : s.canPush n = s.hasSlot (-BitVec.ofNat 32 n) n := by
  simp only [State.canPush, State.writable, State.mayWrite, hpe, Bool.not_false, Bool.true_or, Bool.and_true,
    backed_unpaged (State.paging_of_real hpe)]
  rfl

theorem State.canPop_real (n : Nat) : s.canPop n = s.hasSlot 0 n := by
  simp only [State.canPop, State.readable, State.mayRead, hpe, Bool.not_false, Bool.true_or, Bool.and_true,
    backed_unpaged (State.paging_of_real hpe), State.hasSlot, State.slot, State.movedPointer_zero]
  rfl

theorem State.top_real (n : Nat) : s.top n = s.numberOf (s.slot 0 n) := by
  rw [State.top, State.loadFrom, valueAt_unpaged (State.paging_of_real hpe), State.slot, State.movedPointer_zero]

end

/-- The low half of a pointer, at either stack size. -/
theorem stackWord_low (wide : Bool) (a d : Word) :
    (stackWord wide a + d).toNat % 65536 = (a.toNat + d.toNat) % 65536 := by
  cases wide with
  | true => rw [stackWord, if_pos rfl, BitVec.toNat_add]; omega
  | false =>
    simp only [stackWord, Bool.false_eq_true, if_false, BitVec.toNat_add, BitVec.toNat_setWidth, BitVec.extractLsb'_toNat,
      Nat.shiftRight_zero]
    omega

/-- Words at different even distances below the stack pointer lie apart, also where the pointer wraps (43_stack R330). -/
theorem State.slots_apart (s : State) {i j : Nat} (hij : i < j) (hj : j < 32768) {a b : Word}
    (ha : a ∈ s.slot (-BitVec.ofNat 32 (2 * i)) 2) (hb : b ∈ s.slot (-BitVec.ofNat 32 (2 * j)) 2) :
    a.toNat ≠ b.toNat := by
  obtain ⟨x, hx, rfl⟩ := mem_addrs.1 ha
  obtain ⟨y, hy, rfl⟩ := mem_addrs.1 hb
  intro h
  have hoffset := BitVec.eq_of_toNat_eq h
  rw [State.linear, State.linear, BitVec.add_assoc, BitVec.add_assoc, BitVec.add_right_inj, State.movedPointer_eq,
    State.movedPointer_eq] at hoffset
  have hlow := congrArg (·.toNat % 65536) hoffset
  simp only [stackWord_low] at hlow
  simp only [BitVec.toNat_add, BitVec.toNat_neg, BitVec.toNat_ofNat] at hlow
  omega

/-! ### Pushed words are popped -/

theorem pushed_mem (hp : s.paging = false) (n v : Nat) :
    (s.pushed n v).mem = storeBytes (s.slot (-BitVec.ofNat 32 n) n) (leBytes n v) s.mem := by
  rw [pushed_unpaged hp]
  rfl

/-- A store leaves a number alone that lies apart from it (20_memory R83). -/
theorem numberOf_store_apart {as bs : List Word} {v : List Byte} (ht : t.mem = storeBytes as v s.mem)
    (h : ∀ b ∈ bs, ∀ a ∈ as, b.toNat ≠ a.toNat) : t.numberOf bs = s.numberOf bs := by
  rw [State.numberOf, State.numberOf, ht]
  exact congrArg leNat (List.map_congr_left fun b hb => read_storeBytes_of_ne v s.mem (h b hb))

theorem pushed_wf (hp : s.paging = false) (hm : Memory.wf s.mem = true) (n v : Nat) :
    Memory.wf (s.pushed n v).mem = true := by
  rw [pushed_mem hp]
  exact wf_storeBytes _ _ hm

theorem pushes_wf (hp : s.paging = false) (hm : Memory.wf s.mem = true) (n : Nat) (vs : List Nat) :
    Memory.wf (s.pushes n vs).mem = true := by
  induction vs generalizing s with
  | nil => exact hm
  | cons v vs ih => exact ih (pushed_paging hp v) (pushed_wf hp hm n v)

theorem pushed_numberOf (hp : s.paging = false) (hm : Memory.wf s.mem = true) (hn : n ≤ 4294967296) (v : Nat) :
    (s.pushed n v).numberOf (s.slot (-BitVec.ofNat 32 n) n) = v % 256 ^ n := by
  rw [State.numberOf, pushed_mem hp]
  exact numberOf_storeBytes hm _ hn v

/-- Every pushed word can be read in its slot after all of the pushes. -/
theorem pushes_numberOf (hp : s.paging = false) (hm : Memory.wf s.mem = true) {vs : List Nat} (hlen : vs.length < 32768)
    {i : Nat} (hi : i < vs.length) :
    (s.pushes 2 vs).numberOf (s.slot (-BitVec.ofNat 32 (2 * (i + 1))) 2) = vs[i] % 65536 := by
  induction vs using List.reverseRecOn with
  | nil => cases hi
  | append_singleton vs v ih =>
    have hpaging : (s.pushes 2 vs).paging = false := by
      rw [State.paging, (StackMoved.pushes hp 2 vs).cr0]
      exact hp
    have hslot : (s.pushes 2 vs).slot (-BitVec.ofNat 32 2) 2 = s.slot (-BitVec.ofNat 32 (2 * (vs.length + 1))) 2 := by
      rw [(StackMoved.pushes hp 2 vs).slot, BitVec.add_comm, neg_ofNat_mul_succ]
    rw [List.length_append, List.length_singleton] at hlen hi
    rw [State.pushes_append]
    obtain hlt | rfl := Nat.lt_succ_iff_lt_or_eq.1 hi
    · rw [List.getElem_append_left hlt, ← ih (by omega) hlt]
      refine numberOf_store_apart (pushed_mem hpaging 2 v) fun b hb a ha => ?_
      exact s.slots_apart (by omega) (by omega) hb (hslot ▸ ha)
    · rw [← hslot, List.getElem_concat_length rfl]
      exact pushed_numberOf hpaging (pushes_wf hp hm 2 vs) (by decide) v

theorem State.hasSlot_of_canPushes (hpe : s.pe = false) {vs : List Nat} (h : s.canPushes n vs = true) {i : Nat}
    (hi : i < vs.length) : s.hasSlot (-BitVec.ofNat 32 (n * (i + 1))) n = true := by
  induction vs generalizing s i with
  | nil => cases hi
  | cons v vs ih =>
    obtain ⟨hpush, hpushes⟩ := Bool.and_eq_true_iff.1 h
    cases i with
    | zero => simpa [State.canPush_real hpe] using hpush
    | succ i =>
      have hmoved := StackMoved.pushed (State.paging_of_real hpe) n v
      have hpe' : (s.pushed n v).pe = false := by rw [State.pe, hmoved.cr0]; exact hpe
      have hslot := ih hpe' hpushes (Nat.lt_of_succ_lt_succ hi)
      rwa [hmoved.hasSlot, neg_ofNat_mul_succ] at hslot

/-- Where the stack pointer is back at a pushed word and memory is as the pushes left it, that word is popped. -/
theorem StackMoved.pop (hpe : s.pe = false) (hm : Memory.wf s.mem = true) {vs : List Nat} (hlen : vs.length < 32768)
    (h : s.canPushes 2 vs = true) (hmem : u.mem = (s.pushes 2 vs).mem) {i : Nat} (hi : i < vs.length)
    (hu : StackMoved (-BitVec.ofNat 32 (2 * (i + 1))) s u) :
    u.canPop 2 = true ∧ u.top 2 = vs[i] % 65536 := by
  have hpe' : u.pe = false := by rw [State.pe, hu.cr0]; exact hpe
  have hslot := pushes_numberOf (State.paging_of_real hpe) hm hlen hi
  rw [State.canPop_real hpe', State.top_real hpe', hu.hasSlot, hu.slot, BitVec.ofNat_eq_ofNat, BitVec.add_zero,
    ← hslot, State.numberOf, State.numberOf, hmem]
  exact ⟨State.hasSlot_of_canPushes hpe h hi, rfl⟩

/-- Pops change registers only. -/
theorem State.popped_of_regs (h : u = { t with regs := u.regs }) (n : Nat) :
    u.popped n = { t with regs := (u.popped n).regs } := by
  have hpopped : u.popped n = { u with regs := (u.popped n).regs } := by
    rw [State.popped, State.setStackPointer]
    split <;> rfl
  exact hpopped.trans (congrArg (fun v : State => { v with regs := (u.popped n).regs }) h)

end Sys2Proof.Machine
end

section
/-! PROOF. In real mode IRET gives back what a delivery saved (60_exceptions R501, 46_control_transfer R448, R470): CS, EIP and
the flags are what was popped, and the rest of CS and of EFLAGS is what a real-mode load and the fixed bits leave. -/

namespace Sys2Proof.Machine

variable {s t x y z : State} {vec : Byte} {src : Source} {err : Option Half} {ret : Word}

/-! ### A far return in real mode, and its flags (46_control_transfer R448, 43_stack R346) -/

/-- A segment register that is as a real-mode load leaves it is given back by a load of its selector (20_memory R104). -/
theorem realSegment_realSegment {g : Segment} (hbase : g.base = g.sel.setWidth 32 <<< 4) (hvalid : g.valid = true)
    (sel : Half) : realSegment (realSegment g sel) g.sel = g := by
  rw [realSegment, realSegment, ← hbase, ← hvalid]

/-- The low half of EFLAGS, stored over what a delivery left of the flags, gives them back (43_stack R346). -/
theorem maskedFlags_realFlags {fl : Word} (h : fl &&& ~~~flagsWmask = 2) :
    maskedFlags flagsWmask (realFlags fl) ((fl.extractLsb' 0 16).setWidth 32) = fl := by
  have hrest : realFlags fl &&& ~~~flagsWmask = 2 := by
    have hwithin := congrArg (· &&& ~~~flagsWmask) (enterFlags_within (.inl rfl) fl)
    simp only [BitVec.and_assoc] at hwithin
    exact hwithin.trans h
  have hlow : (fl.extractLsb' 0 16).setWidth 32 &&& flagsWmask = fl &&& flagsWmask := by
    have hmask (i : Nat) (hi : i < 32) : ¬i < 16 → flagsWmask.getLsbD i = false := by
      decide +revert
    refine BitVec.eq_of_getLsbD_eq fun i hi => ?_
    by_cases hlow : i < 16
    · simp [hi, hlow]
    · simp [hmask i hi hlow]
  have hsplit : fl &&& ~~~flagsWmask ||| fl &&& flagsWmask = fl := by
    rw [← BitVec.and_or_distrib_left]
    exact BitVec.and_allOnes
  rw [maskedFlags, hrest, hlow, ← h, BitVec.or_comm, ← BitVec.or_assoc, BitVec.or_self, hsplit]

theorem popMask_real (hpe : s.pe = false) : popMask s.priv0 s.ioPriv = flagsWmask := by
  rw [State.priv0, State.ioPriv, hpe, Bool.not_false, Bool.true_or, Bool.true_or]
  rfl

theorem State.canFarReturn_real (hpe : s.pe = false) {osz : Size} {off : Word}
    (h : (truncTarget osz off).toNat ≤ s.segs.cs.limit.toNat) (sel iw : Half) : s.canFarReturn osz sel off iw = true := by
  rw [State.canFarReturn, State.canReturn, hpe, if_neg Bool.false_ne_true, decide_eq_true h, Bool.true_or]

theorem State.farReturned_real (hpe : s.pe = false) (osz : Size) (sel : Half) (off : Word) :
    s.farReturned osz sel off 0 = { s.setSeg .cs (realSegment s.segs.cs sel) with eip := truncTarget osz off } := by
  rw [State.farReturned, State.returned, hpe, s.released_zero]
  rfl

theorem truncTarget_of_lt (h : ret.toNat < 65536) : truncTarget .b16 ret = ret := by
  refine BitVec.eq_of_toNat_eq ?_
  have hmask : ret.toNat &&& 65535 = ret.toNat % 65536 := Nat.and_two_pow_sub_one_eq_mod ret.toNat 16
  rw [truncTarget, if_neg (by decide), BitVec.toNat_and]
  exact hmask.trans (Nat.mod_eq_of_lt h)

theorem setWidth_low_of_lt (h : ret.toNat < 65536) : (ret.extractLsb' 0 16).setWidth 32 = ret := by
  refine BitVec.eq_of_toNat_eq ?_
  simp only [BitVec.toNat_setWidth, BitVec.extractLsb'_toNat, Nat.shiftRight_zero]
  omega

/-! ### The state at the handler (60_exceptions R501, R505, R506) -/

/-- A delivery keeps the mode, the sizes of an instruction and how pages are walked (60_exceptions R506). -/
theorem State.delivered_context (h : s.canDeliver vec src err ret = true) :
    (s.delivered vec src err ret).pe = s.pe ∧ (s.delivered vec src err ret).ctx = s.ctx ∧
      (s.delivered vec src err ret).plainWalks = s.plainWalks := by
  have hw : s.plainWalks = true := (Bool.and_eq_true_iff.1 h).1
  obtain ⟨-, -, -, -, hcr0, -, -, -, -, -, -, -, -, hctx, hparams⟩ :=
    (deliver_delivers vec src err ret s () _ ((deliver_iff hw).2 ⟨h, rfl⟩)).system
  exact ⟨by rw [State.pe, hcr0, State.pe], hctx, by rw [State.plainWalks, hparams, State.plainWalks]⟩

theorem vectored_stackMoved (hpe : s.pe = false) (vec : Byte) (ret : Word) :
    StackMoved (-BitVec.ofNat 32 (2 * 3)) s (s.vectored vec ret) :=
  have h := StackMoved.pushes (State.paging_of_real hpe) 2 (s.vectorFrame ret)
  ⟨h.cr0, h.params, h.ss, h.regs⟩

theorem State.vectored_segs (s : State) (vec : Byte) (ret : Word) : (s.vectored vec ret).segs =
    s.segs.set .cs (realSegment s.segs.cs ((s.vectorEntry vec).extractLsb' 16 16)) := by
  have hsegs : (s.pushes 2 (s.vectorFrame ret)).segs = s.segs := (s.pushes_fields 2 _).2.1
  exact congrArg (fun g : Segments => g.set .cs _) hsegs

theorem State.vectored_cs (s : State) (vec : Byte) (ret : Word) : (s.vectored vec ret).segs.cs =
    realSegment s.segs.cs ((s.vectorEntry vec).extractLsb' 16 16) := by
  rw [s.vectored_segs]
  rfl

/-- Three pops at the handler read its frame, the last word first, and give back the registers (43_stack R331). -/
theorem vectored_popped (hpe : s.pe = false) (hm : Memory.wf s.mem = true)
    (hpushes : s.canPushes 2 (s.vectorFrame ret) = true) (ht : t = s.vectored vec ret) (hx : x = t.popped 2)
    (hy : y = x.popped 2) (hz : z = y.popped 2) :
    (t.canPop 2 = true ∧ t.top 2 = (ret.extractLsb' 0 16).toNat) ∧
      (x.canPop 2 = true ∧ x.top 2 = s.segs.cs.sel.toNat) ∧
      (y.canPop 2 = true ∧ y.top 2 = (s.eflags.extractLsb' 0 16).toNat) ∧ z = { t with regs := s.regs } := by
  have htmoved : StackMoved (-BitVec.ofNat 32 (2 * 3)) s t := ht ▸ vectored_stackMoved hpe vec ret
  have hxmoved : StackMoved (-BitVec.ofNat 32 (2 * 2)) s x := hx ▸ htmoved.popBack
  have hymoved : StackMoved (-BitVec.ofNat 32 (2 * 1)) s y := hy ▸ hxmoved.popBack
  have hzmoved : StackMoved (-BitVec.ofNat 32 (2 * 0)) s z := hz ▸ hymoved.popBack
  have hxregs : x = { t with regs := x.regs } := hx ▸ State.popped_of_regs rfl 2
  have hyregs : y = { t with regs := y.regs } := hy ▸ State.popped_of_regs hxregs 2
  have hzregs : z = { t with regs := z.regs } := hz ▸ State.popped_of_regs hyregs 2
  have hlen : (s.vectorFrame ret).length = 3 := rfl
  have hmem : t.mem = (s.pushes 2 (s.vectorFrame ret)).mem := ht ▸ rfl
  obtain ⟨hoffset, hoff⟩ := htmoved.pop hpe hm (by omega) hpushes hmem (i := 2) (by omega)
  obtain ⟨hselector, hsel⟩ := hxmoved.pop hpe hm (by omega) hpushes ((congrArg State.mem hxregs).trans hmem) (i := 1)
    (by omega)
  obtain ⟨himage, hfl⟩ := hymoved.pop hpe hm (by omega) hpushes ((congrArg State.mem hyregs).trans hmem) (i := 0)
    (by omega)
  exact ⟨⟨hoffset, hoff.trans (Nat.mod_eq_of_lt (ret.extractLsb' 0 16).isLt)⟩,
    ⟨hselector, hsel.trans (Nat.mod_eq_of_lt s.segs.cs.sel.isLt)⟩,
    ⟨himage, hfl.trans (Nat.mod_eq_of_lt (s.eflags.extractLsb' 0 16).isLt)⟩, hzmoved.regs_back ▸ hzregs⟩

/-! ### The return to what was popped (46_control_transfer R448, R470) -/

section
variable (ht : t = s.vectored vec ret) (hz : z = { t with regs := s.regs }) (hpe : t.pe = false)
  (hret : ret.toNat < 65536)
include ht hz hpe hret

theorem vectored_canReturn (hlimit : ret.toNat ≤ s.segs.cs.limit.toNat) :
    z.canFarReturn .b16 s.segs.cs.sel ret 0 = true := by
  have hzpe : z.pe = false := hz ▸ hpe
  have hcs : z.segs.cs.limit = s.segs.cs.limit := by
    rw [hz, ht, s.vectored_cs, realSegment]
  refine State.canFarReturn_real hzpe ?_ _ _
  rwa [truncTarget_of_lt hret, hcs]

/-- The return gives back CS and EIP, and its flags image EFLAGS. -/
theorem vectored_returned (hbase : s.segs.cs.base = s.segs.cs.sel.setWidth 32 <<< 4) (hvalid : s.segs.cs.valid = true)
    (hfixed : s.eflags &&& ~~~flagsWmask = 2) :
    ((z.farReturned .b16 s.segs.cs.sel ret 0).withFlags fun old =>
      maskedFlags flagsWmask old ((s.eflags.extractLsb' 0 16).setWidth 32)) =
      { t with regs := s.regs, segs := s.segs, eip := ret, eflags := s.eflags } := by
  have hzpe : z.pe = false := hz ▸ hpe
  have hsegs : t.segs.set .cs (realSegment t.segs.cs s.segs.cs.sel) = s.segs := by
    rw [ht, s.vectored_cs, realSegment_realSegment hbase hvalid, s.vectored_segs]
    rfl
  have hflags : maskedFlags flagsWmask t.eflags ((s.eflags.extractLsb' 0 16).setWidth 32) = s.eflags := by
    rw [ht]
    exact maskedFlags_realFlags hfixed
  rw [State.farReturned_real hzpe, truncTarget_of_lt hret, hz, State.withFlags]
  exact congrArg₂ (fun (g : Segments) (fl : Word) => { t with regs := s.regs, segs := g, eip := ret, eflags := fl })
    hsegs hflags

end

/-- Settles O39: IRET pops the frame of the delivery, and returns to it with the flags that it saved. -/
theorem returnUndoesDelivery : Obligations.ReturnUndoesDelivery := by
  unfold Obligations.ReturnUndoesDelivery
  intro s vec ret t hm hw hfixed hosz hbase hvalid hlimit hret hcan ht
  obtain ⟨htpe, htctx, htw⟩ := State.delivered_context (State.canDeliver_real (src := .fault) (err := none) hw hcan)
  rw [State.delivered_real hcan, ← ht] at htpe htctx htw
  simp only [State.canVector, Bool.and_eq_true, Bool.not_eq_true'] at hcan
  obtain ⟨⟨⟨⟨hpe, -⟩, -⟩, hpushes⟩, -⟩ := hcan
  rw [hpe] at htpe
  obtain ⟨z, hpopped⟩ : ∃ z, z = ((t.popped 2).popped 2).popped 2 := ⟨_, rfl⟩
  obtain ⟨⟨hoffset, hoff⟩, ⟨hselector, hsel⟩, ⟨himage, hfl⟩, hz⟩ := vectored_popped hpe hm hpushes ht rfl rfl hpopped
  have hbytes : 2 = t.ctx.osz.bytes := by rw [htctx, hosz, Size.bytes]
  have hiret := ((interruptReturnRuns t (htw.trans hw)).2 2 _ _ z _ _ _ hbytes (.inl htpe) hoffset rfl hselector rfl
    himage hpopped rfl rfl rfl).2 fun h => Bool.false_ne_true (htpe.symm.trans h.1)
  rw [hoff, hsel, hfl, htctx, hosz, BitVec.ofNat_toNat, BitVec.ofNat_toNat, BitVec.ofNat_toNat, BitVec.setWidth_eq,
    setWidth_low_of_lt hret, popMask_real htpe] at hiret
  rw [hiret (vectored_canReturn ht hz htpe hret hlimit),
    vectored_returned ht hz htpe hret hbase hvalid (beq_iff_eq.1 hfixed)]

end Sys2Proof.Machine
end
